-- ==== Sys2Proof/Word.lean ====
section
/-! DEFINITION. The values of the block: natural numbers (00_scope.md R10), their bits (R11), and the 4-bit
operation select code (30_encoding.md R55). A value is Lean's `Nat`, under that name so that Lean's arithmetic
decision procedures read it; the operators `&&&`, `|||`, `^^^`, `<<<`, `>>>` on naturals are the exact operators of
R12: a left shift loses no bit. -/

namespace Sys2Proof

/-- The value on the port `op`: 4 bits (R55). -/
abbrev OpCode := BitVec 4

/-- `bit(v, i)`, which is `floor(v / 2^i) mod 2` (R11). -/
def bit (v i : Nat) : Nat := v / 2 ^ i % 2

end Sys2Proof
end

