-- ==== Sys2Proof/Config.lean ====
section
/-! DEFINITION. The one open parameter of the block, the port width `W` (00_scope.md R7, R9), and the width the
reset state of the model carries. -/

namespace Sys2Proof

/-- The port width `W`: a number of bits, or `inf`, the source's unbounded integers (R7). That a finite width is a
positive multiple of 32 is `PortWidth.wf`. -/
inductive PortWidth where
  | bits (w : Nat)
  | inf
deriving DecidableEq, Repr

/-- DESIGN CHOICE (log entry 1), unsafe: the width of `State.reset`. The spec fixes no width; `inf` makes the block
exactly the source's function library (R7). -/
def Config.resetWidth : PortWidth := .inf

end Sys2Proof
end

