-- ==== Sys2Proof/Syntax.lean ====
section
/-! DEFINITION. Ports, commands and responses (10_state.md R22, R23; 30_encoding.md R55) and the ten operations
(R56), each with the operands it takes (R58). -/

namespace Sys2Proof

/-- What a port carries: a definite value, or an undriven, floating or otherwise indefinite one
(70_reset_and_hazards.md R176, R180). -/
inductive Port (α : Type) where
  | definite (v : α)
  | indefinite
deriving DecidableEq, Repr

/-- The four operand ports (R22). -/
inductive OperandPort where
  | a
  | b
  | c
  | d
deriving DecidableEq, Repr

/-- The five input ports (R22), as a refusal names them. -/
inductive InputPort where
  | op
  | operand (p : OperandPort)
deriving DecidableEq, Repr

/-- A command: what the five input ports carry together (R22, R55). -/
structure Command where
  op : Port OpCode
  a : Port Nat
  b : Port Nat
  c : Port Nat
  d : Port Nat
deriving DecidableEq, Repr

/-- A response: what the four result ports carry together (R23). -/
structure Response where
  r0 : Nat
  r1 : Nat
  r2 : Nat
  r3 : Nat
deriving DecidableEq, Repr

/-- The ten operations of the opcode table (R56), operands in the source's argument order (R58). -/
inductive Instr where
  | spread2 (n : Nat)
  | unspread2 (n : Nat)
  | spread3 (n : Nat)
  | unspread3 (n : Nat)
  | interleave2 (x y : Nat)
  | deinterleave2 (n : Nat)
  | interleave3 (x y z : Nat)
  | deinterleave3 (n : Nat)
  | interleave4 (w x y z : Nat)
  | deinterleave4 (n : Nat)
deriving DecidableEq, Repr

/-- The operands of an operation, left to right (R58). -/
def Instr.operands : Instr → List Nat
  | .spread2 n => [n]
  | .unspread2 n => [n]
  | .spread3 n => [n]
  | .unspread3 n => [n]
  | .interleave2 x y => [x, y]
  | .deinterleave2 n => [n]
  | .interleave3 x y z => [x, y, z]
  | .deinterleave3 n => [n]
  | .interleave4 w x y z => [w, x, y, z]
  | .deinterleave4 n => [n]

/-- The mnemonic of an operation (R57). -/
def Instr.mnemonic : Instr → String
  | .spread2 _ => "spread2"
  | .unspread2 _ => "unspread2"
  | .spread3 _ => "spread3"
  | .unspread3 _ => "unspread3"
  | .interleave2 _ _ => "interleave2"
  | .deinterleave2 _ => "deinterleave2"
  | .interleave3 _ _ _ => "interleave3"
  | .deinterleave3 _ => "deinterleave3"
  | .interleave4 _ _ _ _ => "interleave4"
  | .deinterleave4 _ => "deinterleave4"

end Sys2Proof
end

