-- ==== Sys2Proof/WellFormed.lean ====
section
/-! DEFINITION. What a width, a port value, a command, a response and an instruction must satisfy to be one the
hardware can carry (00_scope.md R7, R10). -/

namespace Sys2Proof

/-- `W` is a positive multiple of 32, or `inf` (R7). -/
def PortWidth.wf : PortWidth → Bool
  | .bits w => decide (0 < w) && decide (w % 32 = 0)
  | .inf => true

/-- A `W`-bit port holds a value `v` with `v < 2^W`; with `W = inf` any natural number (R10). -/
def PortWidth.fits : PortWidth → Nat → Bool
  | .bits w, v => decide (v < 2 ^ w)
  | .inf, _ => true

/-- A port that carries a definite value carries one that fits its width. -/
def Port.fits (w : PortWidth) : Port Nat → Bool
  | .definite v => w.fits v
  | .indefinite => true

/-- Every operand port of the command carries something its width allows. -/
def Command.fits (w : PortWidth) (c : Command) : Bool :=
  c.a.fits w && c.b.fits w && c.c.fits w && c.d.fits w

/-- Every result port of the response carries a value its width allows. -/
def Response.fits (w : PortWidth) (r : Response) : Bool :=
  w.fits r.r0 && w.fits r.r1 && w.fits r.r2 && w.fits r.r3

/-- An instruction is well formed on an instance of width `w` when every operand can be put on a port: an operand
that is too wide is "not expressible" there (95_test_vectors.md section 3.1). -/
def Instr.wf (w : PortWidth) (i : Instr) : Bool := i.operands.all w.fits

end Sys2Proof
end

