-- ==== Sys2Proof/Decode.lean ====
section
/-! DEFINITION. Decoding a command into an instruction, total on every command (30_encoding.md R56, R58, R62, R65;
70_reset_and_hazards.md R176), the encoder, and the words of spec/opcode_table.json. -/

namespace Sys2Proof

/-- Why a command has no instruction: a reserved operation code (R62), or a port the operation uses that carries no
definite value (R176). These are the spec's two model-level refusals (60_exceptions.md R153). -/
inductive DecodeRefusal where
  | reservedOp (op : OpCode)
  | indefiniteInput (p : InputPort)
deriving DecidableEq, Repr

/-- What a command's operand port carries. -/
def Command.operand (c : Command) : OperandPort → Port Nat
  | .a => c.a
  | .b => c.b
  | .c => c.c
  | .d => c.d

/-- The command with another value on one operand port. -/
def Command.setOperand (c : Command) (p : OperandPort) (v : Port Nat) : Command :=
  match p with
  | .a => { c with a := v }
  | .b => { c with b := v }
  | .c => { c with c := v }
  | .d => { c with d := v }

/-- The definite value on an operand port, or the refusal of R176. -/
def Command.read (c : Command) (p : OperandPort) : Except DecodeRefusal Nat :=
  match c.operand p with
  | .definite v => .ok v
  | .indefinite => .error (.indefiniteInput (.operand p))

/-- The operand ports an operation code uses (the table of R58); a reserved code uses none. -/
def operandPorts (op : OpCode) : List OperandPort :=
  match op with
  | 0b0000#4 => [.a]
  | 0b0001#4 => [.a]
  | 0b0010#4 => [.a]
  | 0b0011#4 => [.a]
  | 0b0100#4 => [.a, .b]
  | 0b0101#4 => [.a]
  | 0b0110#4 => [.a, .b, .c]
  | 0b0111#4 => [.a]
  | 0b1000#4 => [.a, .b, .c, .d]
  | 0b1001#4 => [.a]
  | _ => []

/-- The instruction of an operation code, its operands read from the ports of R58 (codes: R56; reserved: R62). Ports
the operation does not use are not read (R61). Where several ports are indefinite the refusal names the first of
a, b, c, d that the operation uses: DESIGN CHOICE (log entry 5), safe. -/
def decodeOp (op : OpCode) (c : Command) : Except DecodeRefusal Instr :=
  match op with
  | 0b0000#4 => do return .spread2 (← c.read .a)
  | 0b0001#4 => do return .unspread2 (← c.read .a)
  | 0b0010#4 => do return .spread3 (← c.read .a)
  | 0b0011#4 => do return .unspread3 (← c.read .a)
  | 0b0100#4 => do return .interleave2 (← c.read .a) (← c.read .b)
  | 0b0101#4 => do return .deinterleave2 (← c.read .a)
  | 0b0110#4 => do return .interleave3 (← c.read .a) (← c.read .b) (← c.read .c)
  | 0b0111#4 => do return .deinterleave3 (← c.read .a)
  | 0b1000#4 => do return .interleave4 (← c.read .a) (← c.read .b) (← c.read .c) (← c.read .d)
  | 0b1001#4 => do return .deinterleave4 (← c.read .a)
  | _ => .error (.reservedOp op)

/-- The instruction a command presents. Every command has exactly one verdict (R65). -/
def decode (c : Command) : Except DecodeRefusal Instr :=
  match c.op with
  | .definite op => decodeOp op c
  | .indefinite => .error (.indefiniteInput .op)

/-- The operation select code of an instruction (R56). -/
def Instr.opCode : Instr → OpCode
  | .spread2 _ => 0b0000#4
  | .unspread2 _ => 0b0001#4
  | .spread3 _ => 0b0010#4
  | .unspread3 _ => 0b0011#4
  | .interleave2 _ _ => 0b0100#4
  | .deinterleave2 _ => 0b0101#4
  | .interleave3 _ _ _ => 0b0110#4
  | .deinterleave3 _ => 0b0111#4
  | .interleave4 _ _ _ _ => 0b1000#4
  | .deinterleave4 _ => 0b1001#4

/-- What the port at place `j` of a, b, c, d carries for an operand list: the operand, or 0 on a port the operation
does not use. The 0 is a DESIGN CHOICE (log entry 9), safe: the spec lets the host drive anything there (R61). -/
def operandOnPort (operands : List Nat) (j : Nat) : Port Nat :=
  .definite ((operands[j]?).getD 0)

/-- A command that presents the instruction: its code on `op`, its operands on a, b, c, d left to right (R58). -/
def encode (i : Instr) : Command where
  op := .definite i.opCode
  a := operandOnPort i.operands 0
  b := operandOnPort i.operands 1
  c := operandOnPort i.operands 2
  d := operandOnPort i.operands 3

/-- The command a word of spec/opcode_table.json stands for. The table numbers the 4 bits of `op` and no operand
bits, and the spec has no serialised form of a command (R55): the word's low 4 bits are driven on `op`, its further
bits reach no port, and every operand is 0. DESIGN CHOICE (log entry 4). -/
def tableCommand (nbits w : Nat) : Command where
  op := .definite (BitVec.ofNat 4 (w % 2 ^ nbits))
  a := .definite 0
  b := .definite 0
  c := .definite 0
  d := .definite 0

/-- The instruction the decoder reads from a word of the opcode table. -/
def decodeTableWord (nbits w : Nat) : Option Instr :=
  match decode (tableCommand nbits w) with
  | .ok i => some i
  | .error _ => none

end Sys2Proof
end

