-- ==== Sys2Proof/Machine/State.lean ====
section
/-! DEFINITION. The state of one instance, why a step can stop, and the state at power-on. The block itself holds no
state (10_state.md R20): State is a snapshot of what the ports carry, and of the parameter `W`. -/

namespace Sys2Proof.Machine

/-- One instance of the block. `width` is the parameter `W`, fixed at instantiation (R21, log entry 1); `input` is
what the host drives on the five input ports (R22); `output` is what the four result ports carry (R23), indefinite
while they are not the settled response to the present inputs (70_reset_and_hazards.md R180, log entry 6). -/
structure State where
  width : PortWidth
  input : Command
  output : Port Response
deriving DecidableEq, Repr

/-- The block raises no exception, fault, trap or error for any command (60_exceptions.md R150): there is no fault,
so the type has no constructor. -/
inductive Fault where
deriving DecidableEq, Repr

/-- Why the model gives a step no meaning (R153). None of these is a hardware exception (R150). -/
inductive Refusal where
  /-- Raised by an arm of `exec` for an instruction without a meaning; no arm does. Safe. -/
  | notModelled (mnemonic : String)
  /-- Raised by `step` when `op` carries one of the codes 10 to 15 (30_encoding.md R62). Safe: the spec asks for it. -/
  | reservedOp (op : OpCode)
  /-- Raised by `step` when `op`, or an operand port the operation uses, carries no definite value
  (70_reset_and_hazards.md R176). Safe: the spec asks for it. -/
  | indefiniteInput (p : InputPort)
deriving DecidableEq, Repr

/-- Power-on. The block has no reset input and no reset value (R32): the host has driven no input port yet, and the
result ports are the response to no command. DESIGN CHOICE (log entries 1 and 3): the width is
`Config.resetWidth` (unsafe), every port is indefinite (safe). -/
def State.reset : State where
  width := Config.resetWidth
  input := ⟨.indefinite, .indefinite, .indefinite, .indefinite, .indefinite⟩
  output := .indefinite

end Sys2Proof.Machine
end

