-- ==== Sys2Proof/Machine/Ops.lean ====
section
/-! DEFINITION. The named operations: the notation of 00_scope.md R12 and R14, the response function's last step
(30_encoding.md R60), and the host's moves on the input ports (70_reset_and_hazards.md R178, R180). The block has no
memory (20_memory.md R40) and takes no exception (60_exceptions.md R156), so there is no operation for either. -/

namespace Sys2Proof

/-- `trunc_W(v) = v mod 2^W`, and `trunc_inf(v) = v` (R14). -/
def PortWidth.trunc : PortWidth → Nat → Nat
  | .bits w, v => v % 2 ^ w
  | .inf, v => v

/-- `W / n`: the capacity of one of `n` operands (R8: `W / 2` for the pair, `W / 4` for the quad). -/
def PortWidth.share (n : Nat) : PortWidth → PortWidth
  | .bits w => .bits (w / n)
  | .inf => .inf

/-- `bitlen(v)`: the number of significant bits, 0 for `v = 0` (R12). -/
def bitlen (v : Nat) : Nat := if v = 0 then 0 else Nat.log2 v + 1

/-- `ceil_div(p, q)`: the least integer at least `p / q` (R12). -/
def ceilDiv (p q : Nat) : Nat := (p + q - 1) / q

/-- What result port `r<j>` is driven to: element `j` of the result tuple reduced to the port width, or 0 beyond the
tuple (R59, R60, R61). -/
def resultPort (w : PortWidth) (results : List Nat) (j : Nat) : Nat :=
  match results[j]? with
  | some v => w.trunc v
  | none => 0

/-- The response for a result tuple of 1 to 4 elements (R60). -/
def respond (w : PortWidth) (results : List Nat) : Response where
  r0 := resultPort w results 0
  r1 := resultPort w results 1
  r2 := resultPort w results 2
  r3 := resultPort w results 3

/-- The command's operation uses the operand port (R58). With `op` indefinite every port counts as used. -/
def Command.uses (c : Command) (p : OperandPort) : Bool :=
  match c.op with
  | .definite op => (operandPorts op).contains p
  | .indefinite => true

end Sys2Proof

namespace Sys2Proof.Machine

/-- The state with the result ports carrying the response, and nothing else changed. -/
def State.withResponse (s : State) (r : Response) : State := { s with output := .definite r }

/-- The block drives its result ports; it writes nothing else (10_state.md R24, R27). -/
def State.drive (s : State) (results : List Nat) : State := s.withResponse (respond s.width results)

/-- The model-level refusal a command without an instruction ends in (60_exceptions.md R153). -/
def Refusal.ofDecode : DecodeRefusal → Refusal
  | .reservedOp op => .reservedOp op
  | .indefiniteInput p => .indefiniteInput p

/-- The host presents a command: it drives all five input ports (R178). Until the next step the result ports are the
response to no command (R180, log entry 6). -/
def State.present (s : State) (c : Command) : State :=
  { s with input := c, output := .indefinite }

/-- The host changes the port `op` alone: a used input changes, so the response is gone (R180). -/
def State.driveOp (s : State) (v : Port OpCode) : State :=
  { s with input := { s.input with op := v }, output := .indefinite }

/-- The host changes one operand port alone. A change of a port the operation uses takes the response away (R180); no
value on an unused port changes a result port (30_encoding.md R61): DEDUCED (log entry 7), unsafe. -/
def State.driveOperand (s : State) (p : OperandPort) (v : Port Nat) : State :=
  { s with
    input := s.input.setOperand p v
    output := if s.input.uses p then .indefinite else s.output }

end Sys2Proof.Machine
end

