-- ==== Sys2Proof/Machine/Operands.lean ====
section
/-! DEFINITION. Operand forms: the narrowing of operands into lanes and chunks (30_encoding.md R63, 20_memory.md R45)
and the port value of a negative number (10_state.md R25). There is no immediate, no addressing mode and no sign
extension (R63; 20_memory.md R43). -/

namespace Sys2Proof

/-- Lane `i` of a pair operand: `(x >> 16i) & 0xFFFF`, least significant lane first (R45, R63). -/
def lane (x : Nat) (i : Nat) : Nat := (x >>> (16 * i)) &&& 0xFFFF

/-- Chunk `i` of a pair code: `(n >> 32i) & 0xFFFFFFFF` (41_pair.md R106). -/
def codeChunk (n : Nat) (i : Nat) : Nat := (n >>> (32 * i)) &&& 0xFFFFFFFF

/-- The integer has a pattern on a port of this width: a negative one a two's-complement pattern, so it is at least
`-2^(W-1)` (R25), a natural one its own value, so it is below `2^W` (00_scope.md R10; beyond it is "not expressible",
95_test_vectors.md section 3.1). With `W = inf` no negative number can be expressed (R25). -/
def PortWidth.expressible : PortWidth → Int → Bool
  | .bits w, z => decide (-2 ^ w ≤ 2 * z) && decide (z < 2 ^ w)
  | .inf, z => decide (0 ≤ z)

/-- The value a host presents when it drives the bit pattern of an integer onto a `W`-bit port: the unsigned value of
its two's-complement pattern (R25). With `W = inf` a negative number cannot be expressed. For an integer that has no
`W`-bit pattern (below `-2^(W-1)`, or `2^W` or more) the spec says nothing of what is presented; `z mod 2^W`, the low
`W` bits, is a DESIGN CHOICE (log entry 15), unsafe. -/
def PortWidth.pattern : PortWidth → Int → Option Nat
  | .bits w, z => some (z % 2 ^ w).toNat
  | .inf, z => if 0 ≤ z then some z.toNat else none

end Sys2Proof
end

