-- ==== Sys2Proof/Machine/Primitives.lean ====
section
/-! DEFINITION. The four bit-spreading primitives (40_spread_primitives.md): one entry mask and four rounds of shift,
combine and mask (R75), the constants as the table of R95 lists them, and the meanings of the four commands. -/

namespace Sys2Proof

/-- The combining operator of a round: `|` or `^` (R75). -/
inductive Combine where
  | or
  | xor
deriving DecidableEq, Repr

/-- The shift direction of a round: `<<` for the spreaders, `>>` for the unspreaders (R75). -/
inductive Direction where
  | left
  | right
deriving DecidableEq, Repr

/-- One round: its shift amount and its mask (R75). -/
structure Round where
  shift : Nat
  mask : Nat
deriving DecidableEq, Repr

/-- A primitive, one row of the table of R95. -/
structure Primitive where
  entry : Nat
  combine : Combine
  direction : Direction
  rounds : List Round
deriving DecidableEq, Repr

def Combine.apply : Combine → Nat → Nat → Nat
  | .or, u, v => u ||| v
  | .xor, u, v => u ^^^ v

def Direction.shift : Direction → Nat → Nat → Nat
  | .left, v, k => v <<< k
  | .right, v, k => v >>> k

/-- `t <- (t COMBINE (t SHIFT s)) & mask` (R75). -/
def Primitive.round (p : Primitive) (t : Nat) (r : Round) : Nat :=
  p.combine.apply t (p.direction.shift t r.shift) &&& r.mask

/-- The entry mask, then the rounds in order (R75, R96). -/
def Primitive.run (p : Primitive) (n : Nat) : Nat :=
  p.rounds.foldl p.round (n &&& p.entry)

/-- The values after the first `k` rounds: `t_k` of the pseudocode (R76, R80, R84, R88). -/
def Primitive.after (p : Primitive) (k : Nat) (n : Nat) : Nat :=
  (p.rounds.take k).foldl p.round (n &&& p.entry)

/-- R95, row `spread2`. -/
def spread2Rounds : Primitive where
  entry := 0x0000FFFF
  combine := .or
  direction := .left
  rounds := [⟨8, 0x00FF00FF⟩, ⟨4, 0x0F0F0F0F⟩, ⟨2, 0x33333333⟩, ⟨1, 0x55555555⟩]

/-- R95, row `unspread2`. -/
def unspread2Rounds : Primitive where
  entry := 0x55555555
  combine := .xor
  direction := .right
  rounds := [⟨1, 0x33333333⟩, ⟨2, 0x0F0F0F0F⟩, ⟨4, 0x00FF00FF⟩, ⟨8, 0x0000FFFF⟩]

/-- R95, row `spread3`. The entry mask is the 10-bit one (R87). -/
def spread3Rounds : Primitive where
  entry := 0x000003FF
  combine := .xor
  direction := .left
  rounds := [⟨16, 0xFF0000FF⟩, ⟨8, 0x0300F00F⟩, ⟨4, 0x030C30C3⟩, ⟨2, 0x09249249⟩]

/-- R95, row `unspread3`. -/
def unspread3Rounds : Primitive where
  entry := 0x09249249
  combine := .xor
  direction := .right
  rounds := [⟨2, 0x030C30C3⟩, ⟨4, 0x0300F00F⟩, ⟨8, 0xFF0000FF⟩, ⟨16, 0x000003FF⟩]

/-- The unbounded function `spread2(n)` (R76). -/
def spread2 (n : Nat) : Nat := spread2Rounds.run n

/-- The unbounded function `unspread2(n)` (R80). -/
def unspread2 (n : Nat) : Nat := unspread2Rounds.run n

/-- The unbounded function `spread3(n)` (R84). -/
def spread3 (n : Nat) : Nat := spread3Rounds.run n

/-- The unbounded function `unspread3(n)` (R88). -/
def unspread3 (n : Nat) : Nat := unspread3Rounds.run n

end Sys2Proof

namespace Sys2Proof.Machine

/-- `op = 0`: `r0 <- trunc_W(spread2(a))`, `r1`, `r2`, `r3 <- 0` (R76). -/
def execSpread2 (n : Nat) (s : State) : Host.Outcome State Fault Refusal :=
  .next (s.drive [spread2 n])

/-- `op = 1`: `r0 <- trunc_W(unspread2(a))`, `r1`, `r2`, `r3 <- 0` (R80). -/
def execUnspread2 (n : Nat) (s : State) : Host.Outcome State Fault Refusal :=
  .next (s.drive [unspread2 n])

/-- `op = 2`: `r0 <- trunc_W(spread3(a))`, `r1`, `r2`, `r3 <- 0` (R84). -/
def execSpread3 (n : Nat) (s : State) : Host.Outcome State Fault Refusal :=
  .next (s.drive [spread3 n])

/-- `op = 3`: `r0 <- trunc_W(unspread3(a))`, `r1`, `r2`, `r3 <- 0` (R88). -/
def execUnspread3 (n : Nat) (s : State) : Host.Outcome State Fault Refusal :=
  .next (s.drive [unspread3 n])

end Sys2Proof.Machine
end

