-- ==== Sys2Proof/Machine/Pair.lean ====
section
/-! DEFINITION. The pair operators (41_pair.md): 16-bit lanes, 32-bit chunks, least significant chunk first, and the
meanings of the two commands. -/

namespace Sys2Proof

/-- The 32 code bits of lane `i` of the two operands: the y-lane shifted left by 1 onto the x-lane (R101). -/
def pairChunk (x y : Nat) (i : Nat) : Nat :=
  spread2 (lane x i) ||| (spread2 (lane y i) <<< 1)

/-- The chunk loop of R101 for `i` in `0 .. cnt-1`: an accumulator that starts at 0. -/
def interleave2Loop (cnt : Nat) (x y : Nat) : Nat :=
  (List.range cnt).foldl (fun code i => code ||| (pairChunk x y i <<< (32 * i))) 0

/-- The unbounded function `interleave2(x, y)`, `ceil(max(bitlen(x), bitlen(y)) / 16)` iterations (R101). -/
def interleave2 (x y : Nat) : Nat :=
  interleave2Loop (ceilDiv (max (bitlen x) (bitlen y)) 16) x y

/-- The chunk loop of R106 for `i` in `0 .. cnt-1`: the two accumulators `(x, y)`. -/
def deinterleave2Loop (cnt : Nat) (n : Nat) : Nat × Nat :=
  (List.range cnt).foldl
    (fun acc i =>
      (acc.1 ||| (unspread2 (codeChunk n i) <<< (16 * i)),
       acc.2 ||| (unspread2 (codeChunk n i >>> 1) <<< (16 * i))))
    (0, 0)

/-- The unbounded function `deinterleave2(n)`, `ceil(bitlen(n) / 32)` iterations (R106). -/
def deinterleave2 (n : Nat) : Nat × Nat :=
  deinterleave2Loop (ceilDiv (bitlen n) 32) n

end Sys2Proof

namespace Sys2Proof.Machine

/-- `op = 4`: `r0 <- trunc_W(interleave2(a, b))`, `r1`, `r2`, `r3 <- 0` (R101). -/
def execInterleave2 (x y : Nat) (s : State) : Host.Outcome State Fault Refusal :=
  .next (s.drive [interleave2 x y])

/-- `op = 5`: `(x, y) <- deinterleave2(a)` on `r0`, `r1`, each through `trunc_W`; `r2`, `r3 <- 0` (R106). -/
def execDeinterleave2 (n : Nat) (s : State) : Host.Outcome State Fault Refusal :=
  .next (s.drive [(deinterleave2 n).1, (deinterleave2 n).2])

end Sys2Proof.Machine
end

