-- ==== Sys2Proof/Machine/Quad.lean ====
section
/-! DEFINITION. The quad operators (43_quad.md): the pair operators nested, no intermediate code truncated (R135), and
the meanings of the two commands. -/

namespace Sys2Proof

/-- The unbounded function `interleave4(w, x, y, z)`: first operand with third, second with fourth (R136). -/
def interleave4 (w x y z : Nat) : Nat :=
  interleave2 (interleave2 w y) (interleave2 x z)

/-- The unbounded function `deinterleave4(n)`: the first intermediate code yields the first and third results, the
second the second and fourth (R140). -/
def deinterleave4 (n : Nat) : Nat × Nat × Nat × Nat :=
  let pq := deinterleave2 n
  let wy := deinterleave2 pq.1
  let xz := deinterleave2 pq.2
  (wy.1, xz.1, wy.2, xz.2)

end Sys2Proof

namespace Sys2Proof.Machine

/-- `op = 8`: `r0 <- trunc_W(interleave4(a, b, c, d))`, `r1`, `r2`, `r3 <- 0` (R136). -/
def execInterleave4 (w x y z : Nat) (s : State) : Host.Outcome State Fault Refusal :=
  .next (s.drive [interleave4 w x y z])

/-- `op = 9`: `(w, x, y, z) <- deinterleave4(a)` on `r0`, `r1`, `r2`, `r3`, each through `trunc_W` (R140). -/
def execDeinterleave4 (n : Nat) (s : State) : Host.Outcome State Fault Refusal :=
  .next (s.drive [(deinterleave4 n).1, (deinterleave4 n).2.1, (deinterleave4 n).2.2.1, (deinterleave4 n).2.2.2])

end Sys2Proof.Machine
end

