-- ==== Sys2Proof/Machine/Triple.lean ====
section
/-! DEFINITION. The triple operators (42_triple.md): one 30-bit code of three 10-bit lanes, no chunking (R120), and
the meanings of the two commands. -/

namespace Sys2Proof

/-- The unbounded function `interleave3(x, y, z)` (R121). -/
def interleave3 (x y z : Nat) : Nat :=
  spread3 x ||| (spread3 y <<< 1) ||| (spread3 z <<< 2)

/-- The unbounded function `deinterleave3(n)` (R125). -/
def deinterleave3 (n : Nat) : Nat × Nat × Nat :=
  (unspread3 n, unspread3 (n >>> 1), unspread3 (n >>> 2))

end Sys2Proof

namespace Sys2Proof.Machine

/-- `op = 6`: `r0 <- trunc_W(interleave3(a, b, c))`, `r1`, `r2`, `r3 <- 0` (R121). -/
def execInterleave3 (x y z : Nat) (s : State) : Host.Outcome State Fault Refusal :=
  .next (s.drive [interleave3 x y z])

/-- `op = 7`: `(x, y, z) <- deinterleave3(a)` on `r0`, `r1`, `r2`, each through `trunc_W`; `r3 <- 0` (R125). -/
def execDeinterleave3 (n : Nat) (s : State) : Host.Outcome State Fault Refusal :=
  .next (s.drive [(deinterleave3 n).1, (deinterleave3 n).2.1, (deinterleave3 n).2.2])

end Sys2Proof.Machine
end

