-- ==== Sys2Proof/Machine/Dispatch.lean ====
section
/-! DEFINITION. One arm per operation of the opcode table (30_encoding.md R56), each one call of its meaning. -/

namespace Sys2Proof.Machine

/-- The response to an instruction, driven on the result ports (30_encoding.md R60). -/
def exec (i : Instr) (s : State) : Host.Outcome State Fault Refusal :=
  match i with
  | .spread2 n => Sys2Proof.Machine.execSpread2 n s
  | .unspread2 n => Sys2Proof.Machine.execUnspread2 n s
  | .spread3 n => Sys2Proof.Machine.execSpread3 n s
  | .unspread3 n => Sys2Proof.Machine.execUnspread3 n s
  | .interleave2 x y => Sys2Proof.Machine.execInterleave2 x y s
  | .deinterleave2 n => Sys2Proof.Machine.execDeinterleave2 n s
  | .interleave3 x y z => Sys2Proof.Machine.execInterleave3 x y z s
  | .deinterleave3 n => Sys2Proof.Machine.execDeinterleave3 n s
  | .interleave4 w x y z => Sys2Proof.Machine.execInterleave4 w x y z s
  | .deinterleave4 n => Sys2Proof.Machine.execDeinterleave4 n s

end Sys2Proof.Machine
end

