-- ==== Sys2Proof/Machine/Step.lean ====
section
/-! DEFINITION. One step: the block answers the command its input ports carry (10_state.md R27). There is no program
counter and nothing is fetched from memory (R26): the instruction is what the host drives. -/

namespace Sys2Proof.Machine

/-- The result ports settle to the response to the present inputs (R27; 70_reset_and_hazards.md R174), or the model
refuses a command that has no meaning (60_exceptions.md R153). -/
def step (s : State) : Host.Outcome State Fault Refusal :=
  match decode s.input with
  | .ok i => exec i s
  | .error e => .refused (Refusal.ofDecode e)

/-- The instruction of an opcode-table word presented on the input ports, where the next step finds it (log
entry 4). -/
def State.withFetchWord (s : State) (nbits w : Nat) : State :=
  s.present (tableCommand nbits w)

end Sys2Proof.Machine
end

