-- ==== Sys2Proof/Machine/FixedWidth.lean ====
section
/-! DEFINITION. The fixed-width realisations the spec describes as equal to the unbounded functions: the primitives on
a 32-bit datapath (40_spread_primitives.md R92), the other combining operators (R93), the pair operators as
`K = W / 32` chunk cells (41_pair.md R103, R112), and the quad with `W / 2`-bit intermediate codes (43_quad.md R139).
`exec` does not use this file; statements hold the two against each other. -/

namespace Sys2Proof

/-- A shift on 32 bits: bits shifted past bit 31 are discarded (R92). -/
def Direction.shift32 : Direction → BitVec 32 → Nat → BitVec 32
  | .left, v, k => v <<< k
  | .right, v, k => v >>> k

def Combine.apply32 : Combine → BitVec 32 → BitVec 32 → BitVec 32
  | .or, u, v => u ||| v
  | .xor, u, v => u ^^^ v

/-- One round on a 32-bit datapath. -/
def Primitive.round32 (p : Primitive) (t : BitVec 32) (r : Round) : BitVec 32 :=
  p.combine.apply32 t (p.direction.shift32 t r.shift) &&& BitVec.ofNat 32 r.mask

/-- A primitive with every intermediate value kept in 32 bits (R92). -/
def Primitive.run32 (p : Primitive) (n : BitVec 32) : BitVec 32 :=
  p.rounds.foldl p.round32 (n &&& BitVec.ofNat 32 p.entry)

/-- `K` chunk cells side by side for `interleave2`: cell `i` takes lane `i` of both operands and drives code bits
`32i+31 .. 32i` (R112). -/
def interleave2Cells : Nat → Nat → Nat → Nat
  | 0, _, _ => 0
  | k + 1, x, y => interleave2Cells k x y + 2 ^ (32 * k) * pairChunk x y k

/-- `K` chunk cells side by side for `deinterleave2`: cell `i` takes bits `32i+31 .. 32i` and drives bits
`16i+15 .. 16i` of both results (R112). -/
def deinterleave2Cells : Nat → Nat → Nat × Nat
  | 0, _ => (0, 0)
  | k + 1, n =>
    ((deinterleave2Cells k n).1 + 2 ^ (16 * k) * unspread2 (codeChunk n k),
     (deinterleave2Cells k n).2 + 2 ^ (16 * k) * unspread2 (codeChunk n k >>> 1))

/-- The quad interleaver with its intermediate codes kept in `W / 2` bits (R139). -/
def interleave4Narrow (width : PortWidth) (w x y z : Nat) : Nat :=
  interleave2 ((width.share 2).trunc (interleave2 w y)) ((width.share 2).trunc (interleave2 x z))

end Sys2Proof
end

