-- ==== Sys2Proof/Machine/Run.lean ====
section
/-! DEFINITION. A run: a finite list of commands the host presents one after the other, sampling each response before
the next (70_reset_and_hazards.md R178, R179). -/

namespace Sys2Proof.Machine

/-- The host presents a command, holds it, and the block answers (R174). -/
def serve (s : State) (c : Command) : Host.Outcome State Fault Refusal := step (s.present c)

/-- The final ports and the sampled responses, in order; the run stops at the first command without a meaning (R62;
95_test_vectors.md P6). What the host computes between commands is the host's (30_encoding.md R67): here the
commands are given (log entry 8). -/
def runCommands : List Command → State → Host.Outcome (State × List (Port Response)) Fault Refusal
  | [], s => .next (s, [])
  | c :: cs, s =>
    match serve s c with
    | .next t =>
      match runCommands cs t with
      | .next (u, rs) => .next (u, t.output :: rs)
      | .fault f => .fault f
      | .refused r => .refused r
    | .fault f => .fault f
    | .refused r => .refused r

end Sys2Proof.Machine
end

