-- ==== Sys2Proof/Machine/Wiring.lean ====
section
/-! DEFINITION. The ten operations as wiring: every result bit is one operand bit or 0 (40_spread_primitives.md R98,
41_pair.md R112). Written from the closed forms of the spec, not from the rounds and loops: `exec` does not use this
file; statements hold the two against each other. -/

namespace Sys2Proof

/-- Bits 0 to `len-1` of `v`, bit `i` at position `stride*i + offset`. -/
def scatter (stride offset : Nat) (v : Nat) : Nat → Nat
  | 0 => 0
  | len + 1 => scatter stride offset v len + bit v len * 2 ^ (stride * len + offset)

/-- The bits of `v` at positions `stride*i + offset` for `i` below `len`, bit `i` at position `i`. -/
def gather (stride offset : Nat) (v : Nat) : Nat → Nat
  | 0 => 0
  | len + 1 => gather stride offset v len + bit v (stride * len + offset) * 2 ^ len

/-- The result tuple of each operation by its closed form: R77, R81, R85, R89, R105, R107, R122, R126, R137, R141. An
operand of the pair and quad operators is taken whole, `bitlen` bits of it. -/
def wiredResults : Instr → List Nat
  | .spread2 n => [scatter 2 0 n 16]
  | .unspread2 n => [gather 2 0 n 16]
  | .spread3 n => [scatter 3 0 n 10]
  | .unspread3 n => [gather 3 0 n 10]
  | .interleave2 x y => [scatter 2 0 x (bitlen x) + scatter 2 1 y (bitlen y)]
  | .deinterleave2 n => [gather 2 0 n (bitlen n), gather 2 1 n (bitlen n)]
  | .interleave3 x y z => [scatter 3 0 x 10 + scatter 3 1 y 10 + scatter 3 2 z 10]
  | .deinterleave3 n => [gather 3 0 n 10, gather 3 1 n 10, gather 3 2 n 10]
  | .interleave4 w x y z =>
    [scatter 4 0 w (bitlen w) + scatter 4 1 x (bitlen x) + scatter 4 2 y (bitlen y) + scatter 4 3 z (bitlen z)]
  | .deinterleave4 n =>
    [gather 4 0 n (bitlen n), gather 4 1 n (bitlen n), gather 4 2 n (bitlen n), gather 4 3 n (bitlen n)]

/-- The response of the wiring on an instance of width `w` (30_encoding.md R60). -/
def wiredResponse (w : PortWidth) (i : Instr) : Response := respond w (wiredResults i)

end Sys2Proof
end

