-- ==== Sys2Proof/Safety.lean ====
section
/-! DEFINITION. What a state of the hardware satisfies, and what counts as a safe command. -/

namespace Sys2Proof

/-- A command the host may present on an instance of width `w`: its code is one of 0 to 9, and each operand the
operation uses is a definite value below `2^W` (70_reset_and_hazards.md R178). Unused ports may carry anything. -/
def Command.admitted (w : PortWidth) (c : Command) : Bool :=
  match decode c with
  | .ok i => i.wf w
  | .error _ => false

end Sys2Proof

namespace Sys2Proof.Machine

/-- The width is a legal one and every definite port value fits it (00_scope.md R7, R10). -/
def State.wf (s : State) : Bool :=
  s.width.wf && s.input.fits s.width &&
    (match s.output with
     | .definite r => r.fits s.width
     | .indefinite => true)

/-- The result ports carry the response to the present inputs, by the wiring, or nothing a host may sample
(10_state.md R32, 70_reset_and_hazards.md R180). -/
def State.settled (s : State) : Bool :=
  match s.output with
  | .indefinite => true
  | .definite r =>
    match decode s.input with
    | .ok i => decide (r = wiredResponse s.width i)
    | .error _ => false

/-- What holds of every state the hardware can be in. -/
def State.inv (s : State) : Bool := s.wf && s.settled

/-- A safe step: it answers a next state, neither a fault nor a refusal. -/
def State.safeStep (s : State) : Prop := ∃ t, step s = .next t

end Sys2Proof.Machine
end

