-- ==== Sys2Proof/Certificates/Slice0/Obligations.lean ====
section
/-! DEFINITION. The statements for the provers. Each docstring names the rule of spec/ it formalises, and says where a
clause is the spec's own inference or the model's own choice. -/

open Sys2Proof Sys2Proof.Machine

/-! ### Encoding -/

/-- 30_encoding.md R56: each of the ten codes, written out bit by bit, is its operation; the codes 10 to 15 are
reserved; bit 0 of `op` is 0 for the forward operations and 1 for their inverses, and `op[3:1]` selects the pair. The
operands come from the ports of R58, whatever the other ports carry. -/
def Obligations.OpCodesSelectTheirOperations : Prop :=
  (∀ (n : Nat) (p q r : Port Nat),
    decode ⟨.definite 0b0000#4, .definite n, p, q, r⟩ = .ok (.spread2 n) ∧
    decode ⟨.definite 0b0001#4, .definite n, p, q, r⟩ = .ok (.unspread2 n) ∧
    decode ⟨.definite 0b0010#4, .definite n, p, q, r⟩ = .ok (.spread3 n) ∧
    decode ⟨.definite 0b0011#4, .definite n, p, q, r⟩ = .ok (.unspread3 n) ∧
    decode ⟨.definite 0b0101#4, .definite n, p, q, r⟩ = .ok (.deinterleave2 n) ∧
    decode ⟨.definite 0b0111#4, .definite n, p, q, r⟩ = .ok (.deinterleave3 n) ∧
    decode ⟨.definite 0b1001#4, .definite n, p, q, r⟩ = .ok (.deinterleave4 n)) ∧
  (∀ (x y : Nat) (q r : Port Nat),
    decode ⟨.definite 0b0100#4, .definite x, .definite y, q, r⟩ = .ok (.interleave2 x y)) ∧
  (∀ (x y z : Nat) (r : Port Nat),
    decode ⟨.definite 0b0110#4, .definite x, .definite y, .definite z, r⟩ = .ok (.interleave3 x y z)) ∧
  (∀ w x y z : Nat,
    decode ⟨.definite 0b1000#4, .definite w, .definite x, .definite y, .definite z⟩ = .ok (.interleave4 w x y z)) ∧
  (∀ (op : OpCode) (a b c d : Port Nat), 10 ≤ op.toNat →
    decode ⟨.definite op, a, b, c, d⟩ = .error (.reservedOp op)) ∧
  (∀ w x y z n : Nat,
    (Instr.unspread2 n).opCode = (Instr.spread2 n).opCode ||| 1#4 ∧
    (Instr.unspread3 n).opCode = (Instr.spread3 n).opCode ||| 1#4 ∧
    (Instr.deinterleave2 n).opCode = (Instr.interleave2 x y).opCode ||| 1#4 ∧
    (Instr.deinterleave3 n).opCode = (Instr.interleave3 x y z).opCode ||| 1#4 ∧
    (Instr.deinterleave4 n).opCode = (Instr.interleave4 w x y z).opCode ||| 1#4 ∧
    (Instr.spread2 n).opCode.getLsbD 0 = false ∧ (Instr.spread3 n).opCode.getLsbD 0 = false ∧
    (Instr.interleave2 x y).opCode.getLsbD 0 = false ∧ (Instr.interleave3 x y z).opCode.getLsbD 0 = false ∧
    (Instr.interleave4 w x y z).opCode.getLsbD 0 = false)

/-- Decoding an encoded instruction gives it back, every operand at every value; and a command decodes to `i` exactly
when it carries `i`'s code and, on the ports that code uses, `i`'s operands (30_encoding.md R55, R56, R58, R65). -/
def Obligations.DecodeAndEncodeAgree : Prop :=
  (∀ i : Instr, decode (encode i) = .ok i) ∧
  (∀ (c : Command) (i : Instr),
    decode c = .ok i ↔
      c.op = .definite i.opCode ∧ ∀ p ∈ operandPorts i.opCode, c.operand p = (encode i).operand p)

/-- 30_encoding.md R61: a value put on an operand port the operation does not use changes neither the outcome nor any
result port, definite or not; a result port beyond the operation's results is 0. -/
def Obligations.UnusedPortsAreIgnored : Prop :=
  (∀ (s : State) (op : OpCode) (p : OperandPort) (v : Port Nat),
    s.input.op = .definite op → p ∉ operandPorts op →
      (∀ t, step s = .next t →
        step { s with input := s.input.setOperand p v } = .next { t with input := s.input.setOperand p v }) ∧
      (∀ r, step s = .refused r → step { s with input := s.input.setOperand p v } = .refused r)) ∧
  (∀ (i : Instr) (s t : State) (r : Response), exec i s = .next t → t.output = .definite r →
    (i.opCode ∈ [0#4, 1#4, 2#4, 3#4, 4#4, 6#4, 8#4] → r.r1 = 0 ∧ r.r2 = 0 ∧ r.r3 = 0) ∧
    (i.opCode = 5#4 → r.r2 = 0 ∧ r.r3 = 0) ∧
    (i.opCode = 7#4 → r.r3 = 0))

/-- 30_encoding.md R62: a command with `op` in 10 to 15 is refused, whatever its operands are: it gets no response,
no other meaning and no fault. -/
def Obligations.ReservedCodesAreRefused : Prop :=
  ∀ (s : State) (op : OpCode), s.input.op = .definite op → 10 ≤ op.toNat → step s = .refused (.reservedOp op)

/-- 70_reset_and_hazards.md R176: a command with an indefinite value on a port its operation uses is refused, and the
refusal names such a port; unused operand ports may carry anything, so with the used ports definite the command is
answered. -/
def Obligations.IndefiniteUsedInputIsRefused : Prop :=
  (∀ s : State, s.input.op = .indefinite → step s = .refused (.indefiniteInput .op)) ∧
  (∀ (s : State) (op : OpCode), s.input.op = .definite op → op.toNat < 10 →
    (∃ p ∈ operandPorts op, s.input.operand p = .indefinite) →
    ∃ p ∈ operandPorts op, s.input.operand p = .indefinite ∧ step s = .refused (.indefiniteInput (.operand p))) ∧
  (∀ (s : State) (op : OpCode), s.input.op = .definite op → op.toNat < 10 →
    (∀ p ∈ operandPorts op, s.input.operand p ≠ .indefinite) → ∃ t, step s = .next t)

/-! ### The step -/

/-- When the input ports carry a command that decodes to `i`, a step is `exec i` on that state: no program counter or
other state moves around it (10_state.md R26, R27). -/
def Obligations.StepRunsTheDecodedInstruction : Prop :=
  ∀ (s : State) (i : Instr), decode s.input = .ok i → step s = exec i s

/-- A word of the opcode table placed by `withFetchWord` is the instruction the very next step runs; every code 0 to 9
is such a word and decodes to an instruction with that code. How a table word is laid on the ports is the model's
choice (log entry 4). -/
def Obligations.TableWordRunsAsTheNextStep : Prop :=
  (∀ (s : State) (nbits w : Nat) (i : Instr), decodeTableWord nbits w = some i →
    step (s.withFetchWord nbits w) = exec i (s.withFetchWord nbits w)) ∧
  (∀ w : Nat, w < 10 → ∃ i, decodeTableWord 8 w = some i ∧ i.opCode = BitVec.ofNat 4 w)

/-- The frame of every instruction: `exec` answers a next state in which the result ports carry a definite response,
and the width and every input port are as before (10_state.md R21, R24, R27). -/
def Obligations.InstructionsChangeOnlyTheResultPorts : Prop :=
  ∀ (i : Instr) (s : State), ∃ t r, exec i s = .next t ∧ t.output = .definite r ∧
    t.width = s.width ∧ t.input.op = s.input.op ∧ t.input.a = s.input.a ∧ t.input.b = s.input.b ∧
    t.input.c = s.input.c ∧ t.input.d = s.input.d

/-- 30_encoding.md R59 (element `j` of the result tuple is driven on `r<j>`, a scalar on `r0`) and 00_scope.md R14
(`trunc_W`, applied exactly once per result port, as the last step), which make the response function of R60: a port
beyond the tuple is 0, and nothing else is truncated. -/
def Obligations.ResultsAreTruncatedOnce : Prop :=
  (∀ (s : State) (i : Instr), decode s.input = .ok i → step s = exec i s) ∧
  (∀ w v : Nat, (PortWidth.bits w).trunc v = v % 2 ^ w ∧ PortWidth.inf.trunc v = v) ∧
  (∀ (s : State) (n : Nat),
    exec (.spread2 n) s = .next (s.withResponse ⟨s.width.trunc (spread2 n), 0, 0, 0⟩) ∧
    exec (.unspread2 n) s = .next (s.withResponse ⟨s.width.trunc (unspread2 n), 0, 0, 0⟩) ∧
    exec (.spread3 n) s = .next (s.withResponse ⟨s.width.trunc (spread3 n), 0, 0, 0⟩) ∧
    exec (.unspread3 n) s = .next (s.withResponse ⟨s.width.trunc (unspread3 n), 0, 0, 0⟩) ∧
    exec (.deinterleave2 n) s = .next (s.withResponse
      ⟨s.width.trunc (deinterleave2 n).1, s.width.trunc (deinterleave2 n).2, 0, 0⟩) ∧
    exec (.deinterleave3 n) s = .next (s.withResponse
      ⟨s.width.trunc (deinterleave3 n).1, s.width.trunc (deinterleave3 n).2.1,
        s.width.trunc (deinterleave3 n).2.2, 0⟩) ∧
    exec (.deinterleave4 n) s = .next (s.withResponse
      ⟨s.width.trunc (deinterleave4 n).1, s.width.trunc (deinterleave4 n).2.1,
        s.width.trunc (deinterleave4 n).2.2.1, s.width.trunc (deinterleave4 n).2.2.2⟩)) ∧
  (∀ (s : State) (w x y z : Nat),
    exec (.interleave2 x y) s = .next (s.withResponse ⟨s.width.trunc (interleave2 x y), 0, 0, 0⟩) ∧
    exec (.interleave3 x y z) s = .next (s.withResponse ⟨s.width.trunc (interleave3 x y z), 0, 0, 0⟩) ∧
    exec (.interleave4 w x y z) s =
      .next (s.withResponse ⟨s.width.trunc (interleave4 w x y z), 0, 0, 0⟩))

/-- `trunc_W` changes nothing for the primitives, the triple operations and, for an operand that fits the port, the
deinterleave operations; it can change the codes of the pair and of the quad (30_encoding.md R60's last sentence, an
inference of the spec). -/
def Obligations.TruncationTouchesOnlyTwoCodes : Prop :=
  (∀ (width : PortWidth) (n x y z : Nat), width.wf = true →
    width.trunc (spread2 n) = spread2 n ∧ width.trunc (unspread2 n) = unspread2 n ∧
    width.trunc (spread3 n) = spread3 n ∧ width.trunc (unspread3 n) = unspread3 n ∧
    width.trunc (interleave3 x y z) = interleave3 x y z ∧
    width.trunc (deinterleave3 n).1 = (deinterleave3 n).1 ∧
    width.trunc (deinterleave3 n).2.1 = (deinterleave3 n).2.1 ∧
    width.trunc (deinterleave3 n).2.2 = (deinterleave3 n).2.2) ∧
  (∀ (width : PortWidth) (n : Nat), width.fits n = true →
    width.trunc (deinterleave2 n).1 = (deinterleave2 n).1 ∧ width.trunc (deinterleave2 n).2 = (deinterleave2 n).2 ∧
    width.trunc (deinterleave4 n).1 = (deinterleave4 n).1 ∧
    width.trunc (deinterleave4 n).2.1 = (deinterleave4 n).2.1 ∧
    width.trunc (deinterleave4 n).2.2.1 = (deinterleave4 n).2.2.1 ∧
    width.trunc (deinterleave4 n).2.2.2 = (deinterleave4 n).2.2.2) ∧
  (PortWidth.bits 32).trunc (interleave2 0x10000 0) ≠ interleave2 0x10000 0 ∧
  (PortWidth.bits 32).trunc (interleave4 0x100 0 0 0) ≠ interleave4 0x100 0 0 0

/-- Every operation is wiring: from every state `exec` answers the next state in which the result ports carry the
closed form's response, every result bit one operand bit or 0, and nothing else changes (the closed forms R77, R81,
R85, R89, R105, R107, R122, R126, R137, R141 and the remark of R98, inferences of the spec from the pseudocode). -/
def Obligations.EveryOperationIsWiring : Prop :=
  ∀ (i : Instr) (s : State), exec i s = .next (s.withResponse (wiredResponse s.width i))

/-- 10_state.md R27, R33: a step is a function of the command and of `W`: two states with the same width and inputs
get the same response, whatever response came before. -/
def Obligations.ResponseDependsOnTheCommandAlone : Prop :=
  ∀ s s' t : State, s.width = s'.width → s.input = s'.input → step s = .next t →
    step s' = .next { s' with output := t.output }

/-- 20_memory.md R49: presenting a command twice gives the same response twice and changes nothing. -/
def Obligations.StepIsIdempotent : Prop :=
  ∀ s t : State, step s = .next t → step t = .next t

/-- The table of 20_memory.md R49: operand bits outside an operation's window cannot affect its response, on any legal
width; and every bit of a `deinterleave2` or `deinterleave4` operand can (an inference of the spec from the closed
forms). -/
def Obligations.OnlyWindowBitsAffectTheResponse : Prop :=
  ∀ s : State, s.width.wf = true →
    (∀ n n' : Nat, n % 2 ^ 16 = n' % 2 ^ 16 → exec (.spread2 n) s = exec (.spread2 n') s) ∧
    (∀ n n' : Nat, n &&& 0x55555555 = n' &&& 0x55555555 → exec (.unspread2 n) s = exec (.unspread2 n') s) ∧
    (∀ n n' : Nat, n % 2 ^ 10 = n' % 2 ^ 10 → exec (.spread3 n) s = exec (.spread3 n') s) ∧
    (∀ n n' : Nat, n &&& 0x09249249 = n' &&& 0x09249249 → exec (.unspread3 n) s = exec (.unspread3 n') s) ∧
    (∀ x y x' y' : Nat, (s.width.share 2).trunc x = (s.width.share 2).trunc x' →
      (s.width.share 2).trunc y = (s.width.share 2).trunc y' →
      exec (.interleave2 x y) s = exec (.interleave2 x' y') s) ∧
    (∀ n n' : Nat, s.width.fits n = true → s.width.fits n' = true →
      exec (.deinterleave2 n) s = exec (.deinterleave2 n') s → n = n') ∧
    (∀ x y z x' y' z' : Nat, x % 2 ^ 10 = x' % 2 ^ 10 → y % 2 ^ 10 = y' % 2 ^ 10 → z % 2 ^ 10 = z' % 2 ^ 10 →
      exec (.interleave3 x y z) s = exec (.interleave3 x' y' z') s) ∧
    (∀ n n' : Nat, n % 2 ^ 30 = n' % 2 ^ 30 → exec (.deinterleave3 n) s = exec (.deinterleave3 n') s) ∧
    (∀ w x y z w' x' y' z' : Nat, (s.width.share 4).trunc w = (s.width.share 4).trunc w' →
      (s.width.share 4).trunc x = (s.width.share 4).trunc x' →
      (s.width.share 4).trunc y = (s.width.share 4).trunc y' →
      (s.width.share 4).trunc z = (s.width.share 4).trunc z' →
      exec (.interleave4 w x y z) s = exec (.interleave4 w' x' y' z') s) ∧
    (∀ n n' : Nat, s.width.fits n = true → s.width.fits n' = true →
      exec (.deinterleave4 n) s = exec (.deinterleave4 n') s → n = n')

/-! ### The invariant, the host's moves, and runs -/

/-- The power-on state is one the hardware can be in. Its values are the model's choice (log entries 1 and 3). -/
def Obligations.ResetMeetsTheInvariant : Prop := State.reset.inv = true

/-- Every step keeps the invariant: the width is legal, every port value fits it, and the result ports carry the
wiring's response to the present inputs or nothing to sample (00_scope.md R7, R10; 10_state.md R32). -/
def Obligations.StepKeepsTheInvariant : Prop :=
  ∀ s t : State, s.inv = true → step s = .next t → t.inv = true

/-- Every move of the host that drives values its ports can carry keeps the invariant (70_reset_and_hazards.md R178;
what a move does to the result ports is the model's reading of R180 and R61, log entries 6 and 7). -/
def Obligations.HostMovesKeepTheInvariant : Prop :=
  ∀ s : State, s.inv = true →
    (∀ c : Command, c.fits s.width = true → (s.present c).inv = true) ∧
    (∀ v : Port OpCode, (s.driveOp v).inv = true) ∧
    (∀ (p : OperandPort) (v : Port Nat), v.fits s.width = true → (s.driveOperand p v).inv = true)

/-- 70_reset_and_hazards.md R180 as log entries 6 and 7 read it: after a change of a used input there is nothing to
sample until the next step; after a change of an unused one the response stands, and it is the response a further step
gives. -/
def Obligations.OnlyAUsedInputDisturbsTheResponse : Prop :=
  (∀ (s : State) (c : Command), (s.present c).output = .indefinite) ∧
  (∀ (s : State) (v : Port OpCode), (s.driveOp v).output = .indefinite) ∧
  (∀ (s : State) (p : OperandPort) (v : Port Nat), s.input.uses p = true →
    (s.driveOperand p v).output = .indefinite) ∧
  (∀ (s : State) (p : OperandPort) (v : Port Nat) (r : Response), s.settled = true → s.output = .definite r →
    s.input.uses p = false →
    (s.driveOperand p v).output = .definite r ∧ step (s.driveOperand p v) = .next (s.driveOperand p v))

/-- Every admitted command completes and produces its response, from whatever the ports carried before: the block answers
with the wiring's response to that command and the input ports keep the command (60_exceptions.md R151,
70_reset_and_hazards.md R178). -/
def Obligations.AdmittedCommandsComplete : Prop :=
  ∀ (s : State) (c : Command), c.admitted s.width = true →
    (s.present c).safeStep ∧
    ∃ i t, decode c = .ok i ∧ i.wf s.width = true ∧ serve s c = .next t ∧ t.input = c ∧ t.width = s.width ∧
      t.output = .definite (wiredResponse s.width i)

/-- A run of commands that decode answers every one of them, each with the wiring's response to that command alone,
in any order and after any earlier commands (20_memory.md R50; 60_exceptions.md R151; 70_reset_and_hazards.md
R179). -/
def Obligations.RunAnswersEveryCommand : Prop :=
  ∀ (cs : List Command) (is : List Instr) (s : State), List.Forall₂ (fun c i => decode c = .ok i) cs is →
    ∃ t, runCommands cs s = .next (t, is.map fun i => .definite (wiredResponse s.width i)) ∧ t.width = s.width

/-- A run that meets a reserved code after commands that decode is refused there, and no later command is reached
(30_encoding.md R62; 95_test_vectors.md P6). -/
def Obligations.RunIsRefusedAtAReservedCode : Prop :=
  ∀ (cs ds : List Command) (bad : Command) (op : OpCode) (s : State),
    (∀ c ∈ cs, ∃ i, decode c = .ok i) → bad.op = .definite op → 10 ≤ op.toNat →
    runCommands (cs ++ bad :: ds) s = .refused (.reservedOp op)

/-! ### Primitives: the command, its pseudocode, and the corner cases of its rule -/

/-- 40_spread_primitives.md R76. -/
def Obligations.Spread2FollowsItsPseudocode : Prop :=
  (∀ (s : State) (n : Nat), s.width.wf = true →
    exec (.spread2 n) s = .next (s.withResponse
      ⟨(let t0 := n &&& 0x0000FFFF
        let t1 := (t0 ||| (t0 <<< 8)) &&& 0x00FF00FF
        let t2 := (t1 ||| (t1 <<< 4)) &&& 0x0F0F0F0F
        let t3 := (t2 ||| (t2 <<< 2)) &&& 0x33333333
        let t4 := (t3 ||| (t3 <<< 1)) &&& 0x55555555
        t4), 0, 0, 0⟩)) ∧
  (∀ (s : State) (n : Nat), s.input.op = .definite 0b0000#4 → s.input.a = .definite n →
    step s = exec (.spread2 n) s) ∧
  spread2 0 = 0 ∧ spread2 0xFFFF = 0x55555555 ∧ spread2 0x8000 = 0x40000000 ∧ spread2 0x10000 = 0 ∧
  spread2 0x1FFFF = 0x55555555 ∧ spread2 0xFFFFFFFF = 0x55555555 ∧ spread2 0xA5A5 = 0x44114411 ∧
  (List.range 5).map (fun k => spread2Rounds.after k 0xA5A5) =
    [0x0000A5A5, 0x00A500A5, 0x0A050A05, 0x22112211, 0x44114411] ∧
  (∀ n, spread2 n < 2 ^ 31)

/-- 40_spread_primitives.md R80. -/
def Obligations.Unspread2FollowsItsPseudocode : Prop :=
  (∀ (s : State) (n : Nat), s.width.wf = true →
    exec (.unspread2 n) s = .next (s.withResponse
      ⟨(let t0 := n &&& 0x55555555
        let t1 := (t0 ^^^ (t0 >>> 1)) &&& 0x33333333
        let t2 := (t1 ^^^ (t1 >>> 2)) &&& 0x0F0F0F0F
        let t3 := (t2 ^^^ (t2 >>> 4)) &&& 0x00FF00FF
        let t4 := (t3 ^^^ (t3 >>> 8)) &&& 0x0000FFFF
        t4), 0, 0, 0⟩)) ∧
  (∀ (s : State) (n : Nat), s.input.op = .definite 0b0001#4 → s.input.a = .definite n →
    step s = exec (.unspread2 n) s) ∧
  unspread2 0 = 0 ∧ unspread2 0x55555555 = 0xFFFF ∧ unspread2 0xAAAAAAAA = 0 ∧ unspread2 0xFFFFFFFF = 0xFFFF ∧
  unspread2 0x40000000 = 0x8000 ∧ unspread2 0x80000000 = 0 ∧ unspread2 0x100000000 = 0 ∧
  unspread2 0x1FFFFFFFF = 0xFFFF ∧ unspread2 0xDEADBEEF = 0xE36B ∧
  (List.range 5).map (fun k => unspread2Rounds.after k 0xDEADBEEF) =
    [0x54051445, 0x32031223, 0x0E03060B, 0x00E3006B, 0x0000E36B] ∧
  (∀ n, unspread2 n < 2 ^ 16)

/-- 40_spread_primitives.md R84. -/
def Obligations.Spread3FollowsItsPseudocode : Prop :=
  (∀ (s : State) (n : Nat), s.width.wf = true →
    exec (.spread3 n) s = .next (s.withResponse
      ⟨(let t0 := n &&& 0x000003FF
        let t1 := (t0 ^^^ (t0 <<< 16)) &&& 0xFF0000FF
        let t2 := (t1 ^^^ (t1 <<< 8)) &&& 0x0300F00F
        let t3 := (t2 ^^^ (t2 <<< 4)) &&& 0x030C30C3
        let t4 := (t3 ^^^ (t3 <<< 2)) &&& 0x09249249
        t4), 0, 0, 0⟩)) ∧
  (∀ (s : State) (n : Nat), s.input.op = .definite 0b0010#4 → s.input.a = .definite n →
    step s = exec (.spread3 n) s) ∧
  spread3 0 = 0 ∧ spread3 0x3FF = 0x09249249 ∧ spread3 0x200 = 0x08000000 ∧ spread3 0x400 = 0 ∧
  spread3 0x7FF = 0x09249249 ∧ spread3 0xFFFF = 0x09249249 ∧ spread3 0x2A5 = 0x08208041 ∧
  (List.range 5).map (fun k => spread3Rounds.after k 0x2A5) =
    [0x000002A5, 0x020000A5, 0x0200A005, 0x02082041, 0x08208041] ∧
  (∀ n, spread3 n < 2 ^ 28)

/-- 40_spread_primitives.md R88. -/
def Obligations.Unspread3FollowsItsPseudocode : Prop :=
  (∀ (s : State) (n : Nat), s.width.wf = true →
    exec (.unspread3 n) s = .next (s.withResponse
      ⟨(let t0 := n &&& 0x09249249
        let t1 := (t0 ^^^ (t0 >>> 2)) &&& 0x030C30C3
        let t2 := (t1 ^^^ (t1 >>> 4)) &&& 0x0300F00F
        let t3 := (t2 ^^^ (t2 >>> 8)) &&& 0xFF0000FF
        let t4 := (t3 ^^^ (t3 >>> 16)) &&& 0x000003FF
        t4), 0, 0, 0⟩)) ∧
  (∀ (s : State) (n : Nat), s.input.op = .definite 0b0011#4 → s.input.a = .definite n →
    step s = exec (.unspread3 n) s) ∧
  unspread3 0 = 0 ∧ unspread3 0x09249249 = 0x3FF ∧ unspread3 0x12492492 = 0 ∧ unspread3 0x24924924 = 0 ∧
  unspread3 0x3FFFFFFF = 0x3FF ∧ unspread3 0x08000000 = 0x200 ∧ unspread3 0x40000000 = 0 ∧
  unspread3 0xFFFFFFFF = 0x3FF ∧ unspread3 0xDEADBEEF = 0x2FF ∧ (∀ n, unspread3 n < 2 ^ 10)

/-! ### Primitives: closed forms and laws -/

/-- 40_spread_primitives.md R77: the closed form of `spread2` and everything the rule draws from it. -/
def Obligations.Spread2PutsBitIAtBit2I : Prop :=
  (∀ n : Nat, spread2 n = ∑ i ∈ Finset.range 16, bit n i * 2 ^ (2 * i)) ∧
  (∀ n i : Nat, i < 16 → bit (spread2 n) (2 * i) = bit n i) ∧
  (∀ n i : Nat, i % 2 = 1 ∨ 30 < i → bit (spread2 n) i = 0) ∧
  (∀ n : Nat, spread2 n &&& 0x55555555 = spread2 n ∧ spread2 n < 2 ^ 31 ∧ spread2 n = spread2 (n &&& 0xFFFF)) ∧
  (∀ m n : Nat, m ≤ 0xFFFF → n ≤ 0xFFFF → spread2 m = spread2 n → m = n)

/-- 40_spread_primitives.md R81: the closed form of `unspread2`. -/
def Obligations.Unspread2CollectsTheEvenBits : Prop :=
  (∀ n : Nat, unspread2 n = ∑ i ∈ Finset.range 16, bit n (2 * i) * 2 ^ i) ∧
  (∀ m n : Nat, (∀ i < 16, bit m (2 * i) = bit n (2 * i)) → unspread2 m = unspread2 n) ∧
  (∀ n : Nat, unspread2 n < 2 ^ 16 ∧ unspread2 n = unspread2 (n &&& 0x55555555))

/-- The closed forms of `spread3` and `unspread3` (40_spread_primitives.md R85, R89: their consequences are inferences
of the spec). -/
def Obligations.Spread3AndUnspread3MoveEveryThirdBit : Prop :=
  (∀ n : Nat, spread3 n = ∑ i ∈ Finset.range 10, bit n i * 2 ^ (3 * i)) ∧
  (∀ n i : Nat, i < 10 → bit (spread3 n) (3 * i) = bit n i) ∧
  (∀ n i : Nat, i % 3 ≠ 0 ∨ 27 < i → bit (spread3 n) i = 0) ∧
  (∀ n : Nat, spread3 n &&& 0x09249249 = spread3 n ∧ spread3 n < 2 ^ 28 ∧ spread3 n = spread3 (n &&& 0x3FF)) ∧
  (∀ m n : Nat, m ≤ 0x3FF → n ≤ 0x3FF → spread3 m = spread3 n → m = n) ∧
  (∀ n : Nat, unspread3 n = ∑ i ∈ Finset.range 10, bit n (3 * i) * 2 ^ i) ∧
  (∀ n : Nat, unspread3 n < 2 ^ 10 ∧ unspread3 n = unspread3 (n &&& 0x09249249))

/-- The round invariants of the four primitives (40_spread_primitives.md R78, R82, R86, R90, inferences of the spec).
After `k` rounds of a spreader the operand's bits stand in groups of `g` at a pitch of `2g` (2-way) or `3g` (3-way),
with `g = 2^(4-k)`; after `k` rounds of an unspreader the same with `g = 2^k`; every other bit is 0. -/
def Obligations.RoundsMoveGroupsOfBits : Prop :=
  ∀ n k i : Nat, k ≤ 4 →
    (bit (spread2Rounds.after k n) i =
      if i < 32 ∧ i % (2 * 2 ^ (4 - k)) < 2 ^ (4 - k) then
        bit n (i / (2 * 2 ^ (4 - k)) * 2 ^ (4 - k) + i % (2 * 2 ^ (4 - k))) else 0) ∧
    (bit (unspread2Rounds.after k n) i =
      if i < 32 ∧ i % (2 * 2 ^ k) < 2 ^ k then
        bit n (2 * (i / (2 * 2 ^ k) * 2 ^ k + i % (2 * 2 ^ k))) else 0) ∧
    (bit (spread3Rounds.after k n) i =
      if i % (3 * 2 ^ (4 - k)) < 2 ^ (4 - k) ∧ i / (3 * 2 ^ (4 - k)) * 2 ^ (4 - k) + i % (3 * 2 ^ (4 - k)) < 10 then
        bit n (i / (3 * 2 ^ (4 - k)) * 2 ^ (4 - k) + i % (3 * 2 ^ (4 - k))) else 0) ∧
    (bit (unspread3Rounds.after k n) i =
      if i % (3 * 2 ^ k) < 2 ^ k ∧ i / (3 * 2 ^ k) * 2 ^ k + i % (3 * 2 ^ k) < 10 then
        bit n (3 * (i / (3 * 2 ^ k) * 2 ^ k + i % (3 * 2 ^ k))) else 0)

/-- 40_spread_primitives.md R83: the inverse laws of the 2-way primitives. -/
def Obligations.TwoWayPrimitivesAreInverse : Prop :=
  (∀ n : Nat, unspread2 (spread2 n) = n &&& 0xFFFF) ∧
  (∀ n : Nat, n < 2 ^ 16 → unspread2 (spread2 n) = n) ∧
  (∀ m : Nat, spread2 (unspread2 m) = m &&& 0x55555555) ∧
  (∀ p q : Nat, unspread2 (spread2 p ||| (spread2 q <<< 1)) = p &&& 0xFFFF ∧
    unspread2 ((spread2 p ||| (spread2 q <<< 1)) >>> 1) = q &&& 0xFFFF)

/-- The inverse laws of the 3-way primitives, and that three spread values shifted by 0, 1 and 2 do not meet
(40_spread_primitives.md R91, partly an inference of the spec). -/
def Obligations.ThreeWayPrimitivesAreInverse : Prop :=
  (∀ n : Nat, unspread3 (spread3 n) = n &&& 0x3FF) ∧
  (∀ n : Nat, n < 1024 → unspread3 (spread3 n) = n) ∧
  (∀ m : Nat, spread3 (unspread3 m) = m &&& 0x09249249) ∧
  (∀ p q s : Nat,
    spread3 p &&& (spread3 q <<< 1) = 0 ∧ spread3 p &&& (spread3 s <<< 2) = 0 ∧
    (spread3 q <<< 1) &&& (spread3 s <<< 2) = 0 ∧
    spread3 p ||| (spread3 q <<< 1) ||| (spread3 s <<< 2) < 2 ^ 30 ∧
    unspread3 (spread3 p ||| (spread3 q <<< 1) ||| (spread3 s <<< 2)) = p &&& 0x3FF ∧
    unspread3 ((spread3 p ||| (spread3 q <<< 1) ||| (spread3 s <<< 2)) >>> 1) = q &&& 0x3FF ∧
    unspread3 ((spread3 p ||| (spread3 q <<< 1) ||| (spread3 s <<< 2)) >>> 2) = s &&& 0x3FF)

/-- Two `spread2` values, one shifted by 1, merge without interference: OR, sum and XOR agree, below `2^32`
(40_spread_primitives.md R79, an inference of the spec). -/
def Obligations.SpreadValuesMergeWithoutInterference : Prop :=
  ∀ p q : Nat, spread2 p &&& (spread2 q <<< 1) = 0 ∧
    spread2 p ||| (spread2 q <<< 1) = spread2 p + (spread2 q <<< 1) ∧
    spread2 p ||| (spread2 q <<< 1) = spread2 p ^^^ (spread2 q <<< 1) ∧
    spread2 p ||| (spread2 q <<< 1) < 2 ^ 32

/-- Each primitive on a 32-bit datapath that drops the bits shifted past bit 31 gives the unbounded result
(40_spread_primitives.md R92, an inference of the spec). -/
def Obligations.ThirtyTwoBitDatapathIsEnough : Prop :=
  ∀ n : Nat, (spread2Rounds.run32 (BitVec.ofNat 32 n)).toNat = spread2 n ∧
    (unspread2Rounds.run32 (BitVec.ofNat 32 n)).toNat = unspread2 n ∧
    (spread3Rounds.run32 (BitVec.ofNat 32 n)).toNat = spread3 n ∧
    (unspread3Rounds.run32 (BitVec.ofNat 32 n)).toNat = unspread3 n

/-- OR and XOR are interchangeable in every round of every primitive (40_spread_primitives.md R93). The rule's reason,
that a value and its shifted copy share no bit, so that the sum agrees too, is true of `unspread2`, `spread3` and
`unspread3`; it is not true of `spread2` by its own pseudocode (R76), where bits 8 to 15 meet in round 1 and only the
mask removes them: log entry 12. -/
def Obligations.OrAndXorAgreeInEveryRound : Prop :=
  (∀ p ∈ [spread2Rounds, unspread2Rounds, spread3Rounds, unspread3Rounds],
    (∀ (n k : Nat) (r : Round), p.rounds[k]? = some r →
      ({ p with combine := .or }).round (p.after k n) r = ({ p with combine := .xor }).round (p.after k n) r) ∧
    (∀ n : Nat, ({ p with combine := .or }).run n = p.run n ∧ ({ p with combine := .xor }).run n = p.run n)) ∧
  (∀ p ∈ [unspread2Rounds, spread3Rounds, unspread3Rounds], ∀ (n k : Nat) (r : Round), p.rounds[k]? = some r →
    p.after k n &&& p.direction.shift (p.after k n) r.shift = 0 ∧
    p.after k n ||| p.direction.shift (p.after k n) r.shift =
      p.after k n + p.direction.shift (p.after k n) r.shift) ∧
  spread2Rounds.after 0 0xFFFF &&& (spread2Rounds.after 0 0xFFFF <<< 8) ≠ 0 ∧
  (spread2Rounds.after 0 0xFFFF + (spread2Rounds.after 0 0xFFFF <<< 8)) &&& 0x00FF00FF ≠ spread2Rounds.after 1 0xFFFF

/-- `spread3` with the 14-bit entry mask `0x3FFF`, or with `0xFFFF`, gives the same result for every operand
(40_spread_primitives.md R87, an inference of the spec; 90_conflicts.md C4, C14). -/
def Obligations.WiderEntryMaskIsIndistinguishable : Prop :=
  ∀ n : Nat, ({ spread3Rounds with entry := 0x3FFF }).run n = spread3 n ∧
    ({ spread3Rounds with entry := 0xFFFF }).run n = spread3 n

/-! ### Pair, triple and quad: the command, its pseudocode, and the corner cases of its rule -/

/-- 41_pair.md R101. -/
def Obligations.Interleave2FollowsItsPseudocode : Prop :=
  (∀ (s : State) (x y : Nat),
    exec (.interleave2 x y) s = .next (s.withResponse
      ⟨s.width.trunc
        ((List.range (ceilDiv (max (bitlen x) (bitlen y)) 16)).foldl
          (fun code i =>
            code ||| ((spread2 ((x >>> (16 * i)) &&& 0xFFFF) ||| (spread2 ((y >>> (16 * i)) &&& 0xFFFF) <<< 1))
              <<< (32 * i))) 0), 0, 0, 0⟩)) ∧
  (∀ (s : State) (x y : Nat), s.input.op = .definite 0b0100#4 → s.input.a = .definite x →
    s.input.b = .definite y → step s = exec (.interleave2 x y) s) ∧
  (∀ x y : Nat, interleave2 x y = interleave2Cells (ceilDiv (max (bitlen x) (bitlen y)) 16) x y) ∧
  ceilDiv (max (bitlen 0) (bitlen 0)) 16 = 0 ∧ interleave2Loop 1 0 0 = 0 ∧
  ceilDiv (max (bitlen 0x1234) (bitlen 0xABCD)) 16 = 1 ∧ spread2 0x1234 = 0x01040510 ∧
  spread2 0xABCD = 0x44455051 ∧ spread2 0xABCD <<< 1 = 0x888AA0A2 ∧
  ceilDiv (max (bitlen 0x12345678) (bitlen 0x9ABCDEF0)) 16 = 2 ∧
  pairChunk 0x12345678 0x9ABCDEF0 0 = 0xB3BCBF40 ∧ pairChunk 0x12345678 0x9ABCDEF0 1 = 0x838C8FB0 ∧
  interleave2 0 0 = 0 ∧ interleave2 0x10000 0 = 0x100000000 ∧ interleave2 0xFFFF 0x10000 = 0x255555555 ∧
  interleave2 1 1 = 3 ∧ interleave2 0x1234 0xABCD = 0x898EA5B2 ∧
  interleave2 0x12345678 0x9ABCDEF0 = 0x838C8FB0B3BCBF40 ∧
  (∀ x k : Nat, bit (interleave2 x 0) (2 * k) = bit x k ∧ bit (interleave2 x 0) (2 * k + 1) = 0) ∧
  (∀ y k : Nat, bit (interleave2 0 y) (2 * k) = 0 ∧ bit (interleave2 0 y) (2 * k + 1) = bit y k) ∧
  (∀ v k : Nat, bit (interleave2 v v) (2 * k) = bit v k ∧ bit (interleave2 v v) (2 * k + 1) = bit v k)

/-- 41_pair.md R106. -/
def Obligations.Deinterleave2FollowsItsPseudocode : Prop :=
  (∀ (s : State) (n : Nat), s.width.wf = true → s.width.fits n = true →
    exec (.deinterleave2 n) s = .next (s.withResponse
      ⟨(List.range (ceilDiv (bitlen n) 32)).foldl
          (fun x i => x ||| (unspread2 ((n >>> (32 * i)) &&& 0xFFFFFFFF) <<< (16 * i))) 0,
        (List.range (ceilDiv (bitlen n) 32)).foldl
          (fun y i => y ||| (unspread2 (((n >>> (32 * i)) &&& 0xFFFFFFFF) >>> 1) <<< (16 * i))) 0, 0, 0⟩)) ∧
  (∀ (s : State) (n : Nat), s.input.op = .definite 0b0101#4 → s.input.a = .definite n →
    step s = exec (.deinterleave2 n) s) ∧
  (∀ (width : PortWidth) (n : Nat), width.wf = true → width.fits n = true →
    (width.share 2).fits (deinterleave2 n).1 = true ∧ (width.share 2).fits (deinterleave2 n).2 = true) ∧
  (∀ n : Nat, deinterleave2 n = deinterleave2Cells (ceilDiv (bitlen n) 32) n) ∧
  (∀ n : Nat, unspread2 (n &&& 0xFFFFFFFF) = unspread2 n ∧
    unspread2 ((n &&& 0xFFFFFFFF) >>> 1) = unspread2 (n >>> 1)) ∧
  (∀ n : Nat, ∃! xy : Nat × Nat, interleave2 xy.1 xy.2 = n) ∧
  ceilDiv (bitlen 0) 32 = 0 ∧ deinterleave2Loop 1 0 = (0, 0) ∧
  ceilDiv (bitlen 0xDEADBEEF) 32 = 1 ∧ unspread2 0xDEADBEEF = 0xE36B ∧ 0xDEADBEEF >>> 1 = 0x6F56DF77 ∧
  unspread2 0x6F56DF77 = 0xBEFF ∧
  deinterleave2 0 = (0, 0) ∧ deinterleave2 0xAAAAAAAA = (0, 0xFFFF) ∧
  deinterleave2 0xFFFFFFFF = (0xFFFF, 0xFFFF) ∧ deinterleave2 0x100000000 = (0x10000, 0) ∧
  deinterleave2 0x200000000 = (0, 0x10000) ∧ deinterleave2 0xDEADBEEF = (0xE36B, 0xBEFF)

/-- 42_triple.md R121. -/
def Obligations.Interleave3FollowsItsPseudocode : Prop :=
  (∀ (s : State) (x y z : Nat), s.width.wf = true →
    exec (.interleave3 x y z) s = .next (s.withResponse
      ⟨spread3 x ||| (spread3 y <<< 1) ||| (spread3 z <<< 2), 0, 0, 0⟩)) ∧
  (∀ (s : State) (x y z : Nat), s.input.op = .definite 0b0110#4 → s.input.a = .definite x →
    s.input.b = .definite y → s.input.c = .definite z → step s = exec (.interleave3 x y z) s) ∧
  (∀ x y z : Nat, spread3 x ||| (spread3 y <<< 1) ||| (spread3 z <<< 2) =
      spread3 x + (spread3 y <<< 1) + (spread3 z <<< 2) ∧
    spread3 x ||| (spread3 y <<< 1) ||| (spread3 z <<< 2) =
      spread3 x ^^^ (spread3 y <<< 1) ^^^ (spread3 z <<< 2)) ∧
  interleave3 0 0 0 = 0 ∧ interleave3 0x3FF 0 0 = 0x09249249 ∧ interleave3 0 0x3FF 0 = 0x12492492 ∧
  interleave3 0 0 0x3FF = 0x24924924 ∧ interleave3 0x3FF 0x3FF 0x3FF = 0x3FFFFFFF ∧ interleave3 1024 0 0 = 0 ∧
  interleave3 1025 0 0 = 1 ∧ interleave3 0x200 0x200 0x200 = 0x38000000 ∧
  interleave3 (1024 &&& 0x3FF) 0 0 = 0 ∧ interleave3 (1025 &&& 0x3FF) 0 0 = 1 ∧
  spread3 5 = 0x41 ∧ spread3 3 = 0x9 ∧ spread3 6 = 0x48 ∧ interleave3 5 3 6 = 0x173

/-- 42_triple.md R125. -/
def Obligations.Deinterleave3FollowsItsPseudocode : Prop :=
  (∀ (s : State) (n : Nat), s.width.wf = true →
    exec (.deinterleave3 n) s = .next (s.withResponse
      ⟨unspread3 n, unspread3 (n >>> 1), unspread3 (n >>> 2), 0⟩)) ∧
  (∀ (s : State) (n : Nat), s.input.op = .definite 0b0111#4 → s.input.a = .definite n →
    step s = exec (.deinterleave3 n) s) ∧
  deinterleave3 0 = (0, 0, 0) ∧ deinterleave3 0x3FFFFFFF = (0x3FF, 0x3FF, 0x3FF) ∧
  deinterleave3 0x40000000 = (0, 0, 0) ∧ deinterleave3 0xFFFFFFFF = (0x3FF, 0x3FF, 0x3FF) ∧
  (∀ n : Nat, deinterleave3 n = deinterleave3 (n % 2 ^ 30)) ∧
  unspread3 0xDEADBEEF = 0x2FF ∧ unspread3 0x6F56DF77 = 0x37D ∧ unspread3 0x37AB6FBB = 0x18B ∧
  deinterleave3 0xDEADBEEF = (0x2FF, 0x37D, 0x18B)

/-- 43_quad.md R136. -/
def Obligations.Interleave4FollowsItsPseudocode : Prop :=
  (∀ (s : State) (w x y z : Nat),
    exec (.interleave4 w x y z) s = .next (s.withResponse
      ⟨s.width.trunc (interleave2 (interleave2 w y) (interleave2 x z)), 0, 0, 0⟩)) ∧
  (∀ (s : State) (w x y z : Nat), s.input.op = .definite 0b1000#4 → s.input.a = .definite w →
    s.input.b = .definite x → s.input.c = .definite y → s.input.d = .definite z →
    step s = exec (.interleave4 w x y z) s) ∧
  interleave4 0 0 0 0 = 0 ∧ interleave4 1 0 0 0 = 1 ∧ interleave4 0 1 0 0 = 2 ∧ interleave4 0 0 1 0 = 4 ∧
  interleave4 0 0 0 1 = 8 ∧ interleave4 1 1 1 1 = 0xF ∧ interleave4 0xFF 0 0 0 = 0x11111111 ∧
  interleave4 0 0xFF 0 0 = 0x22222222 ∧ interleave4 0 0 0xFF 0 = 0x44444444 ∧
  interleave4 0 0 0 0xFF = 0x88888888 ∧ interleave4 0x100 0 0 0 = 0x100000000 ∧
  interleave4 0x10000 0 0 0 = 0x10000000000000000 ∧ interleave2 1 3 = 0xB ∧ interleave2 2 4 = 0x24 ∧
  interleave2 0xB 0x24 = 0x865 ∧ interleave4 1 2 3 4 = 0x865 ∧
  (∀ w x y z k : Nat, bit (interleave2 (interleave2 w x) (interleave2 y z)) (4 * k) = bit w k ∧
    bit (interleave2 (interleave2 w x) (interleave2 y z)) (4 * k + 2) = bit x k ∧
    bit (interleave2 (interleave2 w x) (interleave2 y z)) (4 * k + 1) = bit y k ∧
    bit (interleave2 (interleave2 w x) (interleave2 y z)) (4 * k + 3) = bit z k)

/-- 43_quad.md R140. -/
def Obligations.Deinterleave4FollowsItsPseudocode : Prop :=
  (∀ (s : State) (n p q w x y z : Nat), s.width.wf = true → s.width.fits n = true →
    deinterleave2 n = (p, q) → deinterleave2 p = (w, y) → deinterleave2 q = (x, z) →
    exec (.deinterleave4 n) s = .next (s.withResponse ⟨w, x, y, z⟩)) ∧
  (∀ (s : State) (n : Nat), s.input.op = .definite 0b1001#4 → s.input.a = .definite n →
    step s = exec (.deinterleave4 n) s) ∧
  (∀ (width : PortWidth) (n : Nat), width.wf = true → width.fits n = true →
    (width.share 4).fits (deinterleave4 n).1 = true ∧ (width.share 4).fits (deinterleave4 n).2.1 = true ∧
    (width.share 4).fits (deinterleave4 n).2.2.1 = true ∧ (width.share 4).fits (deinterleave4 n).2.2.2 = true) ∧
  deinterleave4 0 = (0, 0, 0, 0) ∧ deinterleave4 1 = (1, 0, 0, 0) ∧ deinterleave4 2 = (0, 1, 0, 0) ∧
  deinterleave4 4 = (0, 0, 1, 0) ∧ deinterleave4 8 = (0, 0, 0, 1) ∧
  (∀ n : Nat, ∃! v : Nat × Nat × Nat × Nat, interleave4 v.1 v.2.1 v.2.2.1 v.2.2.2 = n) ∧
  deinterleave2 0xDEADBEEF = (0xE36B, 0xBEFF) ∧ deinterleave2 0xE36B = (0x99, 0xD7) ∧
  deinterleave2 0xBEFF = (0x6F, 0xFF) ∧
  deinterleave4 0xFFFFFFFF = (0xFF, 0xFF, 0xFF, 0xFF) ∧ deinterleave4 0xDEADBEEF = (0x99, 0x6F, 0xD7, 0xFF)

/-! ### Order, closed forms and laws of the operators -/

/-- 20_memory.md R45: chunk `i` of a pair code is the 32 bits at offset `32*i`, made of lane `i` of both operands, least
significant chunk first; on the way back chunk `i` fills the 16 bits at offset `16*i` of both results. -/
def Obligations.ChunksAreLeastSignificantFirst : Prop :=
  (∀ x y i : Nat, (interleave2 x y >>> (32 * i)) % 2 ^ 32 =
    spread2 ((x >>> (16 * i)) &&& 0xFFFF) ||| (spread2 ((y >>> (16 * i)) &&& 0xFFFF) <<< 1)) ∧
  (∀ n i : Nat, ((deinterleave2 n).1 >>> (16 * i)) % 2 ^ 16 = unspread2 ((n >>> (32 * i)) % 2 ^ 32) ∧
    ((deinterleave2 n).2 >>> (16 * i)) % 2 ^ 16 = unspread2 (((n >>> (32 * i)) % 2 ^ 32) >>> 1))

/-- 20_memory.md R46: the first operand owns the least significant position of each group: bit `k` of the operand at
place `j` of `interleave2`, `interleave3`, `interleave4` is code bit `2k+j`, `3k+j` (`k` below 10), `4k+j`. -/
def Obligations.FirstOperandOwnsTheLowestPosition : Prop :=
  (∀ x y k : Nat, bit (interleave2 x y) (2 * k) = bit x k ∧ bit (interleave2 x y) (2 * k + 1) = bit y k) ∧
  (∀ x y z k : Nat, k < 10 → bit (interleave3 x y z) (3 * k) = bit x k ∧
    bit (interleave3 x y z) (3 * k + 1) = bit y k ∧ bit (interleave3 x y z) (3 * k + 2) = bit z k) ∧
  (∀ w x y z k : Nat, bit (interleave4 w x y z) (4 * k) = bit w k ∧ bit (interleave4 w x y z) (4 * k + 1) = bit x k ∧
    bit (interleave4 w x y z) (4 * k + 2) = bit y k ∧ bit (interleave4 w x y z) (4 * k + 3) = bit z k)

/-- The closed forms of the deinterleave operations (41_pair.md R107, 42_triple.md R126, 43_quad.md R141, inferences of
the spec). -/
def Obligations.DeinterleaveCollectsEveryNthBit : Prop :=
  (∀ n k : Nat, bit (deinterleave2 n).1 k = bit n (2 * k) ∧ bit (deinterleave2 n).2 k = bit n (2 * k + 1)) ∧
  (∀ n k : Nat,
    bit (deinterleave3 n).1 k = (if k < 10 then bit n (3 * k) else 0) ∧
    bit (deinterleave3 n).2.1 k = (if k < 10 then bit n (3 * k + 1) else 0) ∧
    bit (deinterleave3 n).2.2 k = (if k < 10 then bit n (3 * k + 2) else 0)) ∧
  (∀ n k : Nat, bit (deinterleave4 n).1 k = bit n (4 * k) ∧ bit (deinterleave4 n).2.1 k = bit n (4 * k + 1) ∧
    bit (deinterleave4 n).2.2.1 k = bit n (4 * k + 2) ∧ bit (deinterleave4 n).2.2.2 k = bit n (4 * k + 3))

/-- How long codes and results are (41_pair.md R105, R107; 42_triple.md R122, R126; 43_quad.md R138, R141, inferences of
the spec). -/
def Obligations.CodeAndResultLengths : Prop :=
  (∀ x y : Nat, bitlen (interleave2 x y) = max (2 * bitlen x - 1) (2 * bitlen y)) ∧
  (∀ x y : Nat, interleave2 x y = interleave2 x 0 ||| interleave2 0 y ∧ interleave2 0 y = interleave2 y 0 <<< 1) ∧
  (∀ n : Nat, (deinterleave2 n).1 < 2 ^ ((bitlen n + 1) / 2) ∧ (deinterleave2 n).2 < 2 ^ (bitlen n / 2)) ∧
  (∀ x y z : Nat, interleave3 x y z < 2 ^ 30) ∧
  (∀ n : Nat, (deinterleave3 n).1 < 2 ^ 10 ∧ (deinterleave3 n).2.1 < 2 ^ 10 ∧ (deinterleave3 n).2.2 < 2 ^ 10 ∧
    deinterleave3 n = deinterleave3 (n &&& 0x3FFFFFFF)) ∧
  (∀ w x y z L : Nat, bitlen w ≤ L → bitlen x ≤ L → bitlen y ≤ L → bitlen z ≤ L →
    bitlen (interleave2 w y) ≤ 2 * L ∧ bitlen (interleave2 x z) ≤ 2 * L ∧ bitlen (interleave4 w x y z) ≤ 4 * L) ∧
  (∀ n : Nat, bitlen (deinterleave4 n).1 ≤ ceilDiv (bitlen n) 4 ∧ bitlen (deinterleave4 n).2.1 ≤ ceilDiv (bitlen n) 4 ∧
    bitlen (deinterleave4 n).2.2.1 ≤ ceilDiv (bitlen n) 4 ∧ bitlen (deinterleave4 n).2.2.2 ≤ ceilDiv (bitlen n) 4)

/-- Running the chunk loops longer than their count changes nothing, so the count is not observable, the all-zero
operand included (41_pair.md R103, R107, inferences of the spec). -/
def Obligations.IterationCountIsNotObservable : Prop :=
  (∀ cnt x y : Nat, ceilDiv (max (bitlen x) (bitlen y)) 16 ≤ cnt → interleave2Loop cnt x y = interleave2 x y) ∧
  (∀ cnt n : Nat, ceilDiv (bitlen n) 32 ≤ cnt → deinterleave2Loop cnt n = deinterleave2 n)

/-- `K = W / 32` chunk cells side by side, their outputs concatenated by addition, are the commands of an instance of
width `W` (41_pair.md R102, R103, R112, inferences of the spec). -/
def Obligations.ChunkCellsRealiseThePairOperators : Prop :=
  (∀ (s : State) (k x y : Nat), s.width = .bits (32 * k) →
    exec (.interleave2 x y) s = .next (s.withResponse ⟨interleave2Cells k x y, 0, 0, 0⟩)) ∧
  (∀ (s : State) (k n : Nat), s.width = .bits (32 * k) → s.width.fits n = true →
    exec (.deinterleave2 n) s = .next (s.withResponse
      ⟨(deinterleave2Cells k n).1, (deinterleave2Cells k n).2, 0, 0⟩))

/-- The capacity of the pair command: `r0` is the code of the operands reduced to `W / 2` bits, and the whole code
exactly when both operands fit in `W / 2` bits (41_pair.md R104, an inference of the spec). -/
def Obligations.PairCapacityIsHalfTheWidth : Prop :=
  ∀ (s : State) (x y : Nat), s.width.wf = true →
    exec (.interleave2 x y) s = .next (s.withResponse
      ⟨interleave2 ((s.width.share 2).trunc x) ((s.width.share 2).trunc y), 0, 0, 0⟩) ∧
    (s.width.trunc (interleave2 x y) = interleave2 x y ↔
      (s.width.share 2).fits x = true ∧ (s.width.share 2).fits y = true)

/-- The capacity of the quad command, and that its intermediate codes may be kept in `W / 2` bits (43_quad.md R139, an
inference of the spec). -/
def Obligations.QuadCapacityIsAQuarterOfTheWidth : Prop :=
  ∀ (s : State) (w x y z : Nat), s.width.wf = true →
    exec (.interleave4 w x y z) s = .next (s.withResponse
      ⟨interleave4 ((s.width.share 4).trunc w) ((s.width.share 4).trunc x) ((s.width.share 4).trunc y)
        ((s.width.share 4).trunc z), 0, 0, 0⟩) ∧
    (s.width.trunc (interleave4 w x y z) = interleave4 w x y z ↔
      (s.width.share 4).fits w = true ∧ (s.width.share 4).fits x = true ∧ (s.width.share 4).fits y = true ∧
      (s.width.share 4).fits z = true) ∧
    s.width.trunc (interleave4 w x y z) = s.width.trunc (interleave4Narrow s.width w x y z)

/-- The pair round trip: unconditional for the functions; for the commands it returns the operands reduced to `W / 2`
bits (41_pair.md R108; the finite-`W` part is an inference of the spec). -/
def Obligations.PairRoundTrip : Prop :=
  (∀ x y : Nat, deinterleave2 (interleave2 x y) = (x, y)) ∧
  (∀ (s : State) (x y : Nat), s.width.wf = true → ∃ code,
    exec (.interleave2 x y) s = .next (s.withResponse ⟨code, 0, 0, 0⟩) ∧
    exec (.deinterleave2 code) s = .next (s.withResponse
      ⟨(s.width.share 2).trunc x, (s.width.share 2).trunc y, 0, 0⟩))

/-- The triple round trip: each operand comes back reduced to 10 bits, on every legal width (42_triple.md R127; the
general form is an inference of the spec). -/
def Obligations.TripleRoundTrip : Prop :=
  ∀ (s : State) (x y z : Nat), s.width.wf = true → ∃ code,
    exec (.interleave3 x y z) s = .next (s.withResponse ⟨code, 0, 0, 0⟩) ∧
    exec (.deinterleave3 code) s = .next (s.withResponse ⟨x &&& 0x3FF, y &&& 0x3FF, z &&& 0x3FF, 0⟩) ∧
    (x < 1024 → y < 1024 → z < 1024 →
      exec (.deinterleave3 code) s = .next (s.withResponse ⟨x, y, z, 0⟩))

/-- The quad round trip: unconditional for the functions; for the commands it returns the operands reduced to `W / 4`
bits (43_quad.md R142; the finite-`W` part is an inference of the spec). -/
def Obligations.QuadRoundTrip : Prop :=
  (∀ w x y z : Nat, deinterleave4 (interleave4 w x y z) = (w, x, y, z)) ∧
  (∀ (s : State) (w x y z : Nat), s.width.wf = true → ∃ code,
    exec (.interleave4 w x y z) s = .next (s.withResponse ⟨code, 0, 0, 0⟩) ∧
    exec (.deinterleave4 code) s = .next (s.withResponse
      ⟨(s.width.share 4).trunc w, (s.width.share 4).trunc x, (s.width.share 4).trunc y, (s.width.share 4).trunc z⟩))

/-- The reverse round trips: every natural is the code of what it deinterleaves to, a 30-bit window of it for the triple
(41_pair.md R109, 42_triple.md R128, 43_quad.md R143, inferences of the spec). -/
def Obligations.EveryNaturalIsACode : Prop :=
  (∀ n : Nat, interleave2 (deinterleave2 n).1 (deinterleave2 n).2 = n) ∧
  (∀ n : Nat, interleave3 (deinterleave3 n).1 (deinterleave3 n).2.1 (deinterleave3 n).2.2 = n &&& 0x3FFFFFFF) ∧
  (∀ n : Nat, interleave3 (deinterleave3 n).1 (deinterleave3 n).2.1 (deinterleave3 n).2.2 = n ↔ n < 2 ^ 30) ∧
  (∀ n : Nat, interleave4 (deinterleave4 n).1 (deinterleave4 n).2.1 (deinterleave4 n).2.2.1
    (deinterleave4 n).2.2.2 = n) ∧
  (∀ (s : State) (n : Nat), s.width.wf = true → s.width.fits n = true →
    (∃ x y, exec (.deinterleave2 n) s = .next (s.withResponse ⟨x, y, 0, 0⟩) ∧
      exec (.interleave2 x y) s = .next (s.withResponse ⟨n, 0, 0, 0⟩)) ∧
    (∃ w x y z, exec (.deinterleave4 n) s = .next (s.withResponse ⟨w, x, y, z⟩) ∧
      exec (.interleave4 w x y z) s = .next (s.withResponse ⟨n, 0, 0, 0⟩)))

/-- Flipping one operand bit flips exactly one code bit (for the triple below bit 10, and none above), and adding 1 to
`x` with `t` trailing ones flips exactly the code bits `0, 2, …, 2t` (41_pair.md R111, 42_triple.md R130, 43_quad.md
R145, inferences of the spec). -/
def Obligations.OneOperandBitIsOneCodeBit : Prop :=
  (∀ x y k : Nat, interleave2 (x ^^^ 2 ^ k) y = interleave2 x y ^^^ 2 ^ (2 * k) ∧
    interleave2 x (y ^^^ 2 ^ k) = interleave2 x y ^^^ 2 ^ (2 * k + 1)) ∧
  (∀ m t x y : Nat, x = m * 2 ^ (t + 1) + (2 ^ t - 1) →
    interleave2 (x + 1) y = interleave2 x y ^^^ ∑ j ∈ Finset.range (t + 1), 2 ^ (2 * j)) ∧
  (∀ x y z k : Nat, k < 10 → interleave3 (x ^^^ 2 ^ k) y z = interleave3 x y z ^^^ 2 ^ (3 * k) ∧
    interleave3 x (y ^^^ 2 ^ k) z = interleave3 x y z ^^^ 2 ^ (3 * k + 1) ∧
    interleave3 x y (z ^^^ 2 ^ k) = interleave3 x y z ^^^ 2 ^ (3 * k + 2)) ∧
  (∀ x y z k : Nat, 10 ≤ k → interleave3 (x ^^^ 2 ^ k) y z = interleave3 x y z ∧
    interleave3 x (y ^^^ 2 ^ k) z = interleave3 x y z ∧ interleave3 x y (z ^^^ 2 ^ k) = interleave3 x y z) ∧
  (∀ w x y z k : Nat, interleave4 (w ^^^ 2 ^ k) x y z = interleave4 w x y z ^^^ 2 ^ (4 * k) ∧
    interleave4 w (x ^^^ 2 ^ k) y z = interleave4 w x y z ^^^ 2 ^ (4 * k + 1) ∧
    interleave4 w x (y ^^^ 2 ^ k) z = interleave4 w x y z ^^^ 2 ^ (4 * k + 2) ∧
    interleave4 w x y (z ^^^ 2 ^ k) = interleave4 w x y z ^^^ 2 ^ (4 * k + 3))

/-- 42_triple.md R123: operands wider than 10 bits are silently truncated: the command answers as for the operands
masked to `0x3FF`, and never refuses or faults. -/
def Obligations.TripleOperandsAreSilentlyTruncated : Prop :=
  ∀ (s : State) (x y z : Nat), ∃ t, exec (.interleave3 x y z) s = .next t ∧
    exec (.interleave3 (x &&& 0x3FF) (y &&& 0x3FF) (z &&& 0x3FF)) s = .next t ∧
    interleave3 x y z = interleave3 (x &&& 0x3FF) (y &&& 0x3FF) (z &&& 0x3FF)

/-- The quad commands answer as three pair commands do, each truncated to `W`: for any operands forward, for an operand
that fits the port backward (43_quad.md R146, an inference of the spec). -/
def Obligations.QuadCommandIsThreePairCommands : Prop :=
  (∀ (s : State) (w x y z : Nat), s.width.wf = true → ∃ p q code,
    exec (.interleave2 w y) s = .next (s.withResponse ⟨p, 0, 0, 0⟩) ∧
    exec (.interleave2 x z) s = .next (s.withResponse ⟨q, 0, 0, 0⟩) ∧
    exec (.interleave2 p q) s = .next (s.withResponse ⟨code, 0, 0, 0⟩) ∧
    exec (.interleave4 w x y z) s = .next (s.withResponse ⟨code, 0, 0, 0⟩)) ∧
  (∀ (s : State) (n : Nat), s.width.wf = true → s.width.fits n = true → ∃ p q w x y z,
    exec (.deinterleave2 n) s = .next (s.withResponse ⟨p, q, 0, 0⟩) ∧
    exec (.deinterleave2 p) s = .next (s.withResponse ⟨w, y, 0, 0⟩) ∧
    exec (.deinterleave2 q) s = .next (s.withResponse ⟨x, z, 0, 0⟩) ∧
    exec (.deinterleave4 n) s = .next (s.withResponse ⟨w, x, y, z⟩))

/-- The source's literal vectors and zero identities, on every legal width (41_pair.md R110, 42_triple.md R129,
43_quad.md R144). -/
def Obligations.SourceLiteralVectors : Prop :=
  ∀ s : State, s.width.wf = true →
    exec (.interleave2 0x00 0xFF) s = .next (s.withResponse ⟨0xAAAA, 0, 0, 0⟩) ∧
    exec (.interleave2 0x0000 0xFFFF) s = .next (s.withResponse ⟨0xAAAAAAAA, 0, 0, 0⟩) ∧
    exec (.interleave3 0x00 0xFF 0x00) s = .next (s.withResponse ⟨0x492492, 0, 0, 0⟩) ∧
    exec (.interleave3 0x0000 0xFFFF 0x0000) s = .next (s.withResponse ⟨0x12492492, 0, 0, 0⟩) ∧
    exec (.interleave2 0 0) s = .next (s.withResponse ⟨0, 0, 0, 0⟩) ∧
    exec (.interleave3 0 0 0) s = .next (s.withResponse ⟨0, 0, 0, 0⟩) ∧
    exec (.interleave4 0 0 0 0) s = .next (s.withResponse ⟨0, 0, 0, 0⟩) ∧
    exec (.deinterleave2 0) s = .next (s.withResponse ⟨0, 0, 0, 0⟩) ∧
    exec (.deinterleave3 0) s = .next (s.withResponse ⟨0, 0, 0, 0⟩) ∧
    exec (.deinterleave4 0) s = .next (s.withResponse ⟨0, 0, 0, 0⟩) ∧
    spread3 0xFF = 0x249249 ∧ 0x249249 <<< 1 = 0x492492 ∧ 0xFFFF &&& 0x3FF = 0x3FF ∧
    spread3 0x3FF = 0x09249249 ∧ 0x09249249 <<< 1 = 0x12492492

/-- 10_state.md R25: a negative number whose two's-complement pattern a `W`-bit port holds (`-2^(W-1)` and up) is
presented as the unsigned value `2^W` above it, and that value fits the port; with `W = inf` it cannot be expressed. A
command on such values is answered as on any other: the block cannot tell. -/
def Obligations.NegativeInputIsReadAsItsBitPattern : Prop :=
  (∀ (w : Nat) (z : Int), -2 ^ w ≤ 2 * z → z < 0 → ∃ v : Nat, (PortWidth.bits w).pattern z = some v ∧
    (v : Int) = 2 ^ w + z ∧ (PortWidth.bits w).fits v = true) ∧
  (∀ (w v : Nat), v < 2 ^ w → (PortWidth.bits w).pattern v = some v) ∧
  (∀ z : Int, z < 0 → PortWidth.inf.pattern z = none) ∧
  (∀ v : Nat, PortWidth.inf.pattern v = some v) ∧
  (∀ (s : State) (op : OpCode) (a b c d : Int), op.toNat < 10 →
    s.width.expressible a = true → s.width.expressible b = true → s.width.expressible c = true →
    s.width.expressible d = true →
    ∃ va vb vc vd t, s.width.pattern a = some va ∧ s.width.pattern b = some vb ∧ s.width.pattern c = some vc ∧
      s.width.pattern d = some vd ∧
      serve s ⟨.definite op, .definite va, .definite vb, .definite vc, .definite vd⟩ = .next t)

/-- The model's choice (log entry 15), no rule of the spec: every integer, one without a `W`-bit pattern too, is presented
on a finite port as the value below `2^W` congruent to it, and a command on such values is answered. -/
def Obligations.AnyIntegerIsPresentedModuloTheWidth : Prop :=
  (∀ (w : Nat) (z : Int), ∃ v : Nat, (PortWidth.bits w).pattern z = some v ∧ v < 2 ^ w ∧ (2 ^ w : Int) ∣ z - v) ∧
  (∀ (s : State) (w : Nat) (op : OpCode) (a b c d : Int), s.width = .bits w → op.toNat < 10 →
    ∃ va vb vc vd t, s.width.pattern a = some va ∧ s.width.pattern b = some vb ∧ s.width.pattern c = some vc ∧
      s.width.pattern d = some vd ∧
      serve s ⟨.definite op, .definite va, .definite vb, .definite vc, .definite vd⟩ = .next t)
end

