-- ==== Sys2Proof/Laws/Decode.lean ====
section
/-! SUPPORT. What reading a port and decoding answer. -/

namespace Sys2Proof

theorem Command.read_definite {c : Command} {p : OperandPort} {v : Nat} (h : c.operand p = .definite v) :
    c.read p = .ok v := by simp [Command.read, h]

theorem Command.read_indefinite {c : Command} {p : OperandPort} (h : c.operand p = .indefinite) :
    c.read p = .error (.indefiniteInput (.operand p)) := by simp [Command.read, h]

/-- A read answers a value exactly when the port carries it. -/
theorem Command.read_ok_iff {c : Command} {p : OperandPort} {v : Nat} :
    c.read p = .ok v ↔ c.operand p = .definite v := by
  unfold Command.read
  split <;> simp_all

theorem decode_indefinite_op {c : Command} (h : c.op = .indefinite) :
    decode c = .error (.indefiniteInput .op) := by simp [decode, h]

theorem decode_of_op {c : Command} {op : OpCode} (h : c.op = .definite op) : decode c = decodeOp op c := by
  simp [decode, h]

end Sys2Proof
end

