-- ==== Sys2Proof/Laws/Ops.lean ====
section
/-! SUPPORT. `trunc_W`, the shares of a width, and the response of a result tuple. -/

namespace Sys2Proof

theorem PortWidth.fits_trunc (w : PortWidth) (v : Nat) : w.fits (w.trunc v) = true := by
  cases w with
  | bits k => exact decide_eq_true (Nat.mod_lt v (Nat.two_pow_pos k))
  | inf => rfl

/-- `trunc_W` changes nothing that fits. -/
theorem PortWidth.trunc_of_fits {w : PortWidth} {v : Nat} (h : w.fits v = true) : w.trunc v = v := by
  cases w with
  | bits k => exact Nat.mod_eq_of_lt (by simpa [PortWidth.fits] using h)
  | inf => rfl

theorem PortWidth.fits_zero (w : PortWidth) : w.fits 0 = true := by
  cases w <;> simp [PortWidth.fits]

/-- A legal width holds every value below `2^32`. -/
theorem PortWidth.fits_of_lt {w : PortWidth} (hw : w.wf = true) {v : Nat} (h : v < 2 ^ 32) : w.fits v = true := by
  cases w with
  | bits k =>
    have h32 : 32 ≤ k := by simp [PortWidth.wf] at hw; omega
    simpa [PortWidth.fits] using Nat.lt_of_lt_of_le h (Nat.pow_le_pow_right (by decide) h32)
  | inf => rfl

theorem testBit_trunc_bits (k : Nat) (v i : Nat) :
    (PortWidth.trunc (.bits k) v).testBit i = (decide (i < k) && v.testBit i) :=
  Nat.testBit_mod_two_pow v k i

@[simp] theorem respond_one (w : PortWidth) (u : Nat) : respond w [u] = ⟨w.trunc u, 0, 0, 0⟩ := rfl
@[simp] theorem respond_two (w : PortWidth) (u v : Nat) : respond w [u, v] = ⟨w.trunc u, w.trunc v, 0, 0⟩ := rfl
@[simp] theorem respond_three (w : PortWidth) (u v t : Nat) :
    respond w [u, v, t] = ⟨w.trunc u, w.trunc v, w.trunc t, 0⟩ := rfl
@[simp] theorem respond_four (w : PortWidth) (u v t z : Nat) :
    respond w [u, v, t, z] = ⟨w.trunc u, w.trunc v, w.trunc t, w.trunc z⟩ := rfl

theorem fits_resultPort (w : PortWidth) (rs : List Nat) (j : Nat) : w.fits (resultPort w rs j) = true := by
  unfold resultPort
  split
  · exact w.fits_trunc _
  · exact w.fits_zero

/-- Whatever the results are, the response fits the result ports (00_scope.md R10). -/
theorem respond_fits (w : PortWidth) (rs : List Nat) : (respond w rs).fits w = true := by
  simp [Response.fits, respond, fits_resultPort]

end Sys2Proof
end

