-- ==== Sys2Proof/Laws/PerInstr.lean ====
section
/-! SUPPORT. Statements about every instruction, one lemma for each constructor. -/

namespace Sys2Proof.Laws.UsesItsPorts

/-- The ports that the table of 30_encoding.md R58 marks as used are as many as the operation has operands. -/
def Statement (i : Instr) : Prop := (operandPorts i.opCode).length = i.operands.length

theorem spread2 (n : Nat) : Statement (.spread2 n) := rfl
theorem unspread2 (n : Nat) : Statement (.unspread2 n) := rfl
theorem spread3 (n : Nat) : Statement (.spread3 n) := rfl
theorem unspread3 (n : Nat) : Statement (.unspread3 n) := rfl
theorem interleave2 (x y : Nat) : Statement (.interleave2 x y) := rfl
theorem deinterleave2 (n : Nat) : Statement (.deinterleave2 n) := rfl
theorem interleave3 (x y z : Nat) : Statement (.interleave3 x y z) := rfl
theorem deinterleave3 (n : Nat) : Statement (.deinterleave3 n) := rfl
theorem interleave4 (w x y z : Nat) : Statement (.interleave4 w x y z) := rfl
theorem deinterleave4 (n : Nat) : Statement (.deinterleave4 n) := rfl

end Sys2Proof.Laws.UsesItsPorts
end

