-- ==== Sys2Proof/Laws/Rounds.lean ====
section
/-! SUPPORT. One round of a primitive, bit by bit, and the loops of the pair operators, one chunk at a time. -/

namespace Sys2Proof

/-- Bit `i` of a round that shifts left: the bit itself combined with the bit `shift` places below. -/
theorem testBit_round_left {p : Primitive} (hd : p.direction = .left) (t : Nat) (r : Round) (i : Nat) :
    (p.round t r).testBit i =
      ((match p.combine with
        | .or => t.testBit i || (decide (r.shift ≤ i) && t.testBit (i - r.shift))
        | .xor => t.testBit i ^^ (decide (r.shift ≤ i) && t.testBit (i - r.shift))) && r.mask.testBit i) := by
  cases hc : p.combine <;>
    simp [Primitive.round, hd, hc, Direction.shift, Combine.apply, Nat.testBit_and, Nat.testBit_or,
      Nat.testBit_xor, Nat.testBit_shiftLeft]

/-- Bit `i` of a round that shifts right: the bit itself combined with the bit `shift` places above. -/
theorem testBit_round_right {p : Primitive} (hd : p.direction = .right) (t : Nat) (r : Round) (i : Nat) :
    (p.round t r).testBit i =
      ((match p.combine with
        | .or => t.testBit i || t.testBit (r.shift + i)
        | .xor => t.testBit i ^^ t.testBit (r.shift + i)) && r.mask.testBit i) := by
  cases hc : p.combine <;>
    simp [Primitive.round, hd, hc, Direction.shift, Combine.apply, Nat.testBit_and, Nat.testBit_or,
      Nat.testBit_xor, Nat.testBit_shiftRight]

theorem Primitive.run_eq_after (p : Primitive) (n : Nat) : p.run n = p.after p.rounds.length n := by
  simp [Primitive.run, Primitive.after]

theorem interleave2Loop_succ (k : Nat) (x y : Nat) :
    interleave2Loop (k + 1) x y = interleave2Loop k x y ||| (pairChunk x y k <<< (32 * k)) := by
  simp [interleave2Loop, List.range_succ]

theorem deinterleave2Loop_succ (k : Nat) (n : Nat) :
    deinterleave2Loop (k + 1) n =
      ((deinterleave2Loop k n).1 ||| (unspread2 (codeChunk n k) <<< (16 * k)),
       (deinterleave2Loop k n).2 ||| (unspread2 (codeChunk n k >>> 1) <<< (16 * k))) := by
  simp [deinterleave2Loop, List.range_succ]

end Sys2Proof
end

