-- ==== Sys2Proof/Laws/State.lean ====
section
/-! SUPPORT. What each update of State leaves in each field. -/

namespace Sys2Proof.Machine

@[simp] theorem State.withResponse_width (s : State) (r : Response) : (s.withResponse r).width = s.width := rfl
@[simp] theorem State.withResponse_input (s : State) (r : Response) : (s.withResponse r).input = s.input := rfl
@[simp] theorem State.withResponse_output (s : State) (r : Response) : (s.withResponse r).output = .definite r := rfl

@[simp] theorem State.drive_width (s : State) (rs : List Nat) : (s.drive rs).width = s.width := rfl
@[simp] theorem State.drive_input (s : State) (rs : List Nat) : (s.drive rs).input = s.input := rfl
@[simp] theorem State.drive_output (s : State) (rs : List Nat) :
    (s.drive rs).output = .definite (respond s.width rs) := rfl

@[simp] theorem State.present_width (s : State) (c : Command) : (s.present c).width = s.width := rfl
@[simp] theorem State.present_input (s : State) (c : Command) : (s.present c).input = c := rfl
@[simp] theorem State.present_output (s : State) (c : Command) : (s.present c).output = .indefinite := rfl

@[simp] theorem State.driveOp_width (s : State) (v : Port OpCode) : (s.driveOp v).width = s.width := rfl
@[simp] theorem State.driveOp_input (s : State) (v : Port OpCode) :
    (s.driveOp v).input = { s.input with op := v } := rfl
@[simp] theorem State.driveOp_output (s : State) (v : Port OpCode) : (s.driveOp v).output = .indefinite := rfl

@[simp] theorem State.driveOperand_width (s : State) (p : OperandPort) (v : Port Nat) :
    (s.driveOperand p v).width = s.width := rfl
@[simp] theorem State.driveOperand_input (s : State) (p : OperandPort) (v : Port Nat) :
    (s.driveOperand p v).input = s.input.setOperand p v := rfl
@[simp] theorem State.driveOperand_output (s : State) (p : OperandPort) (v : Port Nat) :
    (s.driveOperand p v).output = if s.input.uses p then .indefinite else s.output := rfl

@[simp] theorem State.withFetchWord_width (s : State) (nbits w : Nat) :
    (s.withFetchWord nbits w).width = s.width := rfl
@[simp] theorem State.withFetchWord_input (s : State) (nbits w : Nat) :
    (s.withFetchWord nbits w).input = tableCommand nbits w := rfl

@[simp] theorem Command.setOperand_op (c : Command) (p : OperandPort) (v : Port Nat) :
    (c.setOperand p v).op = c.op := by cases p <;> rfl

@[simp] theorem Command.operand_setOperand_same (c : Command) (p : OperandPort) (v : Port Nat) :
    (c.setOperand p v).operand p = v := by cases p <;> rfl

theorem Command.operand_setOperand_ne (c : Command) {p q : OperandPort} (v : Port Nat) (h : q ≠ p) :
    (c.setOperand p v).operand q = c.operand q := by
  cases p <;> cases q <;> first | rfl | exact absurd rfl h

end Sys2Proof.Machine
end

