-- ==== Sys2Proof/Laws/Step.lean ====
section
/-! SUPPORT. What a step can do, said once: it drives the result ports, or it refuses. -/

namespace Sys2Proof.Machine

/-- The result tuple of the unbounded function of each operation (30_encoding.md R60). -/
def unboundedResults : Instr → List Nat
  | .spread2 n => [spread2 n]
  | .unspread2 n => [unspread2 n]
  | .spread3 n => [spread3 n]
  | .unspread3 n => [unspread3 n]
  | .interleave2 x y => [interleave2 x y]
  | .deinterleave2 n => [(deinterleave2 n).1, (deinterleave2 n).2]
  | .interleave3 x y z => [interleave3 x y z]
  | .deinterleave3 n => [(deinterleave3 n).1, (deinterleave3 n).2.1, (deinterleave3 n).2.2]
  | .interleave4 w x y z => [interleave4 w x y z]
  | .deinterleave4 n =>
    [(deinterleave4 n).1, (deinterleave4 n).2.1, (deinterleave4 n).2.2.1, (deinterleave4 n).2.2.2]

theorem exec_eq (i : Instr) (s : State) : exec i s = .next (s.drive (unboundedResults i)) := by
  cases i <;> rfl

theorem step_of_decode {s : State} {i : Instr} (h : decode s.input = .ok i) :
    step s = .next (s.drive (unboundedResults i)) := by
  simp [step, h, exec_eq]

theorem step_of_decode_error {s : State} {e : DecodeRefusal} (h : decode s.input = .error e) :
    step s = .refused (Refusal.ofDecode e) := by
  simp [step, h]

/-- The one way a step answers a next state. -/
theorem step_next_cases {s t : State} (h : step s = .next t) :
    ∃ i, decode s.input = .ok i ∧ t = s.drive (unboundedResults i) := by
  cases hd : decode s.input with
  | ok i =>
    rw [step_of_decode hd] at h
    exact ⟨i, rfl, (Host.Outcome.next.inj h).symm⟩
  | error e =>
    rw [step_of_decode_error hd] at h
    cases h

theorem serve_of_decode {s : State} {c : Command} {i : Instr} (h : decode c = .ok i) :
    serve s c = .next ((s.present c).drive (unboundedResults i)) := step_of_decode (s := s.present c) h

theorem serve_of_decode_error {s : State} {c : Command} {e : DecodeRefusal} (h : decode c = .error e) :
    serve s c = .refused (Refusal.ofDecode e) := step_of_decode_error (s := s.present c) h

theorem runCommands_nil (s : State) : runCommands [] s = .next (s, []) := rfl

theorem runCommands_cons_next {c : Command} {cs : List Command} {s t u : State} {rs : List (Port Response)}
    (h : serve s c = .next t) (hr : runCommands cs t = .next (u, rs)) :
    runCommands (c :: cs) s = .next (u, t.output :: rs) := by
  simp [runCommands, h, hr]

theorem runCommands_cons_refused {c : Command} {cs : List Command} {s : State} {r : Refusal}
    (h : serve s c = .refused r) : runCommands (c :: cs) s = .refused r := by
  simp [runCommands, h]

theorem runCommands_cons_then_refused {c : Command} {cs : List Command} {s t : State} {r : Refusal}
    (h : serve s c = .next t) (hr : runCommands cs t = .refused r) : runCommands (c :: cs) s = .refused r := by
  simp [runCommands, h, hr]

end Sys2Proof.Machine
end

