-- ==== Sys2Proof/Laws/Word.lean ====
section
/-! SUPPORT. Bits of values, `bitlen`, `ceilDiv`, lanes and chunks, in terms of `Nat.testBit`. -/

namespace Sys2Proof

theorem bit_eq_toNat_testBit (v i : Nat) : bit v i = (v.testBit i).toNat := by
  have h : v.testBit i = decide (v / 2 ^ i % 2 = 1) := Nat.testBit_eq_decide_div_mod_eq
  unfold bit
  rcases Nat.mod_two_eq_zero_or_one (v / 2 ^ i) with h0 | h1
  · simp [h, h0]
  · simp [h, h1]

theorem bit_lt_two (v i : Nat) : bit v i < 2 := Nat.mod_lt _ (by decide)

theorem bit_eq_bit_iff (u v : Nat) (i j : Nat) : bit u i = bit v j ↔ u.testBit i = v.testBit j := by
  rw [bit_eq_toNat_testBit, bit_eq_toNat_testBit]
  cases u.testBit i <;> cases v.testBit j <;> simp

theorem bit_eq_zero_iff (v i : Nat) : bit v i = 0 ↔ v.testBit i = false := by
  rw [bit_eq_toNat_testBit]
  cases v.testBit i <;> simp

/-- Two values with the same bits are the same value. -/
theorem value_eq_of_bit {u v : Nat} (h : ∀ i, bit u i = bit v i) : u = v :=
  Nat.eq_of_testBit_eq fun i => (bit_eq_bit_iff u v i i).1 (h i)

theorem lt_two_pow_bitlen (v : Nat) : v < 2 ^ bitlen v := by
  unfold bitlen
  split
  · simp_all
  · exact Nat.lt_log2_self

/-- `bitlen v` is the least length that holds `v` (R12). -/
theorem bitlen_le_iff (v : Nat) (k : Nat) : bitlen v ≤ k ↔ v < 2 ^ k := by
  constructor
  · intro h
    exact Nat.lt_of_lt_of_le (lt_two_pow_bitlen v) (Nat.pow_le_pow_right (by decide) h)
  · intro h
    unfold bitlen
    split
    · exact Nat.zero_le k
    · next hv => exact (Nat.log2_lt hv).2 h

theorem testBit_of_bitlen_le {v : Nat} {i : Nat} (h : bitlen v ≤ i) : v.testBit i = false :=
  Nat.testBit_lt_two_pow ((bitlen_le_iff v i).1 h)

/-- `ceil_div(p, q)` is the least integer at least `p / q` (R12). -/
theorem ceilDiv_le_iff {p q : Nat} (hq : 0 < q) (k : Nat) : ceilDiv p q ≤ k ↔ p ≤ q * k := by
  unfold ceilDiv
  rw [← Nat.lt_succ_iff, Nat.div_lt_iff_lt_mul hq, Nat.succ_mul, Nat.mul_comm k q]
  omega

theorem testBit_lane (x : Nat) (i k : Nat) :
    (lane x i).testBit k = (decide (k < 16) && x.testBit (16 * i + k)) := by
  have h : (0xFFFF : Nat) = 2 ^ 16 - 1 := rfl
  rw [lane, h, Nat.testBit_and, Nat.testBit_shiftRight, Nat.testBit_two_pow_sub_one, Bool.and_comm]

theorem testBit_codeChunk (n : Nat) (i k : Nat) :
    (codeChunk n i).testBit k = (decide (k < 32) && n.testBit (32 * i + k)) := by
  have h : (0xFFFFFFFF : Nat) = 2 ^ 32 - 1 := rfl
  rw [codeChunk, h, Nat.testBit_and, Nat.testBit_shiftRight, Nat.testBit_two_pow_sub_one, Bool.and_comm]

/-- What a finite port presents fits it. -/
theorem PortWidth.pattern_bits_lt {w v : Nat} {z : Int} (h : (PortWidth.bits w).pattern z = some v) : v < 2 ^ w := by
  simp only [PortWidth.pattern, Option.some.injEq] at h
  have hlt : z % 2 ^ w < 2 ^ w := Int.emod_lt_of_pos z (by positivity)
  have hpow : ((2 ^ w : Nat) : Int) = 2 ^ w := by push_cast; rfl
  omega

/-- An integer that has a pattern on the port is presented. -/
theorem PortWidth.pattern_of_expressible {w : PortWidth} {z : Int} (h : w.expressible z = true) :
    ∃ v, w.pattern z = some v := by
  cases w <;> simp_all [PortWidth.pattern, PortWidth.expressible]

end Sys2Proof
end

