-- ==== Sys2Proof/Laws/Wiring.lean ====
section
/-! SUPPORT. The bits of `scatter` and `gather`. -/

namespace Sys2Proof

theorem bit_eq_zero_or_one (v i : Nat) : bit v i = 0 ∨ bit v i = 1 := Nat.mod_two_eq_zero_or_one _

theorem testBit_one_of_pos {k : Nat} (h : k ≠ 0) : Nat.testBit 1 k = false :=
  Nat.testBit_lt_two_pow (Nat.one_lt_two_pow h)

theorem gather_lt (stride offset : Nat) (v : Nat) (len : Nat) : gather stride offset v len < 2 ^ len := by
  induction len with
  | zero => simp [gather]
  | succ len ih =>
    rw [gather, Nat.pow_succ]
    rcases bit_eq_zero_or_one v (stride * len + offset) with h | h <;> rw [h] <;> omega

theorem testBit_gather (stride offset : Nat) (v : Nat) (len k : Nat) :
    (gather stride offset v len).testBit k = (decide (k < len) && v.testBit (stride * k + offset)) := by
  induction len with
  | zero => simp [gather]
  | succ len ih =>
    have hlt := gather_lt stride offset v len
    rw [gather, Nat.add_comm, Nat.mul_comm, Nat.testBit_two_pow_mul_add _ hlt, ih, bit_eq_toNat_testBit]
    rcases Nat.lt_trichotomy k len with h | h | h
    · have hk : k < len + 1 := by omega
      simp [h, hk]
    · subst h
      cases v.testBit (stride * k + offset) <;> simp
    · have h1 : ¬ k < len := by omega
      have h2 : ¬ k < len + 1 := by omega
      have h3 : k - len ≠ 0 := by omega
      cases v.testBit (stride * len + offset) <;> simp [h1, h2, testBit_one_of_pos h3]

/-- For an offset below the stride, `scatter` holds bit `i` of its operand at `stride*i + offset` and no other bit. -/
theorem scatter_lt {stride offset : Nat} (ho : offset < stride) (v : Nat) (len : Nat) :
    scatter stride offset v len < 2 ^ (stride * len) := by
  induction len with
  | zero => simp [scatter]
  | succ len ih =>
    have h2 : 2 ^ (stride * len) ≤ 2 ^ (stride * len + offset) := Nat.pow_le_pow_right (by decide) (by omega)
    have h3 : 2 ^ (stride * len + offset + 1) ≤ 2 ^ (stride * (len + 1)) :=
      Nat.pow_le_pow_right (by decide) (by rw [Nat.mul_succ]; omega)
    rw [Nat.pow_succ] at h3
    rw [scatter]
    rcases bit_eq_zero_or_one v len with h | h <;> rw [h] <;> omega

theorem testBit_scatter {stride offset : Nat} (ho : offset < stride) (v : Nat) (len k : Nat) :
    (scatter stride offset v len).testBit k =
      (decide (k % stride = offset) && decide (k / stride < len) && v.testBit (k / stride)) := by
  have hs : 0 < stride := by omega
  induction len with
  | zero => simp [scatter]
  | succ len ih =>
    have hlt : scatter stride offset v len < 2 ^ (stride * len + offset) :=
      Nat.lt_of_lt_of_le (scatter_lt ho v len) (Nat.pow_le_pow_right (by decide) (by omega))
    have hdm := Nat.div_add_mod k stride
    have hm := Nat.mod_lt k hs
    rw [scatter, Nat.add_comm, Nat.mul_comm, Nat.testBit_two_pow_mul_add _ hlt, ih, bit_eq_toNat_testBit]
    rcases Nat.lt_trichotomy (k / stride) len with h | h | h
    · have hle : stride * (k / stride) + stride ≤ stride * len := by
        have := Nat.mul_le_mul_left stride (Nat.succ_le_of_lt h)
        rwa [Nat.mul_succ] at this
      have hk : k < stride * len + offset := by omega
      have h' : k / stride < len + 1 := by omega
      simp [hk, h, h']
    · have hl : ¬ k / stride < len := by omega
      have hl1 : k / stride < len + 1 := by omega
      rw [h] at hdm
      have h1 : (k < stride * len + offset) ↔ k % stride < offset := by omega
      have h2 : k - (stride * len + offset) = k % stride - offset := by omega
      rw [h2]
      simp only [h1, h]
      rcases Nat.lt_trichotomy (k % stride) offset with g | g | g
      · have : k % stride ≠ offset := by omega
        simp [g, this]
      · cases v.testBit len <;> simp [g]
      · have g1 : ¬ k % stride < offset := by omega
        have g2 : k % stride ≠ offset := by omega
        have g3 : k % stride - offset ≠ 0 := by omega
        cases v.testBit len <;> simp [g1, g2, testBit_one_of_pos g3]
    · have hle : stride * len + stride ≤ stride * (k / stride) := by
        have := Nat.mul_le_mul_left stride (Nat.succ_le_of_lt h)
        rwa [Nat.mul_succ] at this
      have hk : ¬ k < stride * len + offset := by omega
      have h1 : ¬ k / stride < len := by omega
      have h2 : ¬ k / stride < len + 1 := by omega
      have h3 : k - (stride * len + offset) ≠ 0 := by omega
      cases v.testBit len <;> simp [hk, h2, testBit_one_of_pos h3]

end Sys2Proof
end

