-- ==== Sys2Proof/Tests/Slice0.lean ====
section
/-! SUPPORT. Tests: expected values from spec/30_encoding.md and spec/95_test_vectors.md; and, for every statement of
Certificates/Slice0/Obligations.lean that has hypotheses, a state and operands that meet them. -/

namespace Sys2Proof.Tests

open Sys2Proof.Machine

/-- An instance of width `w` whose input ports carry the command. -/
def presenting (w : PortWidth) (c : Command) : State := ⟨w, c, .indefinite⟩

/-- The command of a code and its operands on a, b, c, d; ports without an operand carry nothing definite. -/
def cmd (op : OpCode) (operands : List Nat) : Command :=
  let port (j : Nat) : Port Nat :=
    match operands[j]? with
    | some v => .definite v
    | none => .indefinite
  ⟨.definite op, port 0, port 1, port 2, port 3⟩

/-- What the result ports carry after one step, if the step answers a next state. -/
def answer (w : PortWidth) (c : Command) : Option (Port Response) :=
  match step (presenting w c) with
  | .next t => some t.output
  | .fault _ => none
  | .refused _ => none

/-- Why the step is refused, if it is. -/
def refusal (w : PortWidth) (c : Command) : Option Refusal :=
  match step (presenting w c) with
  | .next _ => none
  | .fault _ => none
  | .refused r => some r

/-- The responses of a run, if it completes. -/
def answers (w : PortWidth) (cs : List Command) : Option (List (Port Response)) :=
  match runCommands cs (presenting w (cmd 0 [])) with
  | .next (_, rs) => some rs
  | .fault _ => none
  | .refused _ => none

abbrev W32 : PortWidth := .bits 32
abbrev W64 : PortWidth := .bits 64

/-- The response with these values on r0 to r3. -/
abbrev ports (r0 r1 r2 r3 : Nat) : Option (Port Response) := some (.definite ⟨r0, r1, r2, r3⟩)

/-! ### WellFormed refuses each ill-formed term (00_scope.md R7, R10; 95_test_vectors.md section 3.1) -/

theorem test_wf_width_not_zero : (PortWidth.bits 0).wf = false := by decide
theorem test_wf_width_multiple_of_32 : (PortWidth.bits 33).wf = false := by decide
theorem test_wf_widths : W32.wf = true ∧ (PortWidth.bits 96).wf = true ∧ PortWidth.inf.wf = true := by decide
theorem test_fits_boundary : W32.fits (2 ^ 32 - 1) = true ∧ W32.fits (2 ^ 32) = false := by decide
theorem test_port_fits : (Port.definite (2 ^ 32)).fits W32 = false := by decide
theorem test_command_fits :
    (cmd 8 [2 ^ 32, 0, 0, 0]).fits W32 = false ∧ (cmd 8 [0, 2 ^ 32, 0, 0]).fits W32 = false ∧
    (cmd 8 [0, 0, 2 ^ 32, 0]).fits W32 = false ∧ (cmd 8 [0, 0, 0, 2 ^ 32]).fits W32 = false ∧
    (cmd 8 [0, 0, 0, 2 ^ 32]).fits W64 = true := by decide
theorem test_response_fits :
    (Response.mk (2 ^ 32) 0 0 0).fits W32 = false ∧ (Response.mk 0 (2 ^ 32) 0 0).fits W32 = false ∧
    (Response.mk 0 0 (2 ^ 32) 0).fits W32 = false ∧ (Response.mk 0 0 0 (2 ^ 32)).fits W32 = false := by decide
theorem test_instr_wf :
    (Instr.interleave2 0x100000000 0).wf W32 = false ∧ (Instr.interleave2 0x100000000 0).wf W64 = true ∧
    (Instr.interleave4 0 0 0 (2 ^ 32)).wf W32 = false := by decide
theorem test_admitted :
    (cmd 4 [0x100000000, 0]).admitted W32 = false ∧ (cmd 4 [0x100000000, 0]).admitted W64 = true ∧
    (cmd 12 [1, 2, 3, 4]).admitted W32 = false ∧ (cmd 4 [1]).admitted W32 = false := by decide

/-! ### Decoding: every code written out bit by bit (30_encoding.md R56), operands from the ports of R58 -/

theorem test_decode_spread2 :
    decode ⟨.definite 0b0000#4, .definite 5, .indefinite, .definite 7, .definite 8⟩ = .ok (.spread2 5) := by decide
theorem test_decode_unspread2 :
    decode ⟨.definite 0b0001#4, .definite 5, .definite 6, .indefinite, .definite 8⟩ = .ok (.unspread2 5) := by decide
theorem test_decode_spread3 :
    decode ⟨.definite 0b0010#4, .definite 5, .definite 6, .definite 7, .indefinite⟩ = .ok (.spread3 5) := by decide
theorem test_decode_unspread3 :
    decode ⟨.definite 0b0011#4, .definite 5, .indefinite, .definite 7, .definite 8⟩ = .ok (.unspread3 5) := by decide
theorem test_decode_interleave2 :
    decode ⟨.definite 0b0100#4, .definite 5, .definite 6, .indefinite, .indefinite⟩ = .ok (.interleave2 5 6) := by
  decide
theorem test_decode_deinterleave2 :
    decode ⟨.definite 0b0101#4, .definite 5, .definite 6, .indefinite, .indefinite⟩ = .ok (.deinterleave2 5) := by
  decide
theorem test_decode_interleave3 :
    decode ⟨.definite 0b0110#4, .definite 5, .definite 6, .definite 7, .indefinite⟩ = .ok (.interleave3 5 6 7) := by
  decide
theorem test_decode_deinterleave3 :
    decode ⟨.definite 0b0111#4, .definite 5, .definite 6, .definite 7, .definite 8⟩ = .ok (.deinterleave3 5) := by
  decide
theorem test_decode_interleave4 :
    decode ⟨.definite 0b1000#4, .definite 5, .definite 6, .definite 7, .definite 8⟩ = .ok (.interleave4 5 6 7 8) := by
  decide
theorem test_decode_deinterleave4 :
    decode ⟨.definite 0b1001#4, .definite 5, .definite 6, .definite 7, .definite 8⟩ = .ok (.deinterleave4 5) := by
  decide
theorem test_decode_reserved : ∀ op : OpCode,
    decode ⟨.definite op, .definite 1, .definite 2, .definite 3, .definite 4⟩ = .error (.reservedOp op) ↔
      op = 0b1010#4 ∨ op = 0b1011#4 ∨ op = 0b1100#4 ∨ op = 0b1101#4 ∨ op = 0b1110#4 ∨ op = 0b1111#4 := by decide
theorem test_decode_indefinite_operand :
    decode ⟨.definite 0b1000#4, .definite 5, .definite 6, .indefinite, .definite 8⟩ =
      .error (.indefiniteInput (.operand .c)) := by decide
theorem test_table_word :
    decodeTableWord 8 0b00001000 = some (.interleave4 0 0 0 0) ∧ decodeTableWord 8 0b00001010 = none := by decide

/-! ### One step: 95_test_vectors.md sections 1 to 3 -/

theorem test_spread2 : answer .inf (cmd 0 [0xDEADBEEF]) = ports 0x45545455 0 0 0 := by decide
theorem test_spread2_wide_operand : answer W32 (cmd 0 [0x10000]) = ports 0 0 0 0 := by decide
theorem test_unspread2 : answer .inf (cmd 1 [0x6F56DF77]) = ports 0xBEFF 0 0 0 := by decide
theorem test_unspread2_odd_bits : answer W32 (cmd 1 [0xAAAAAAAA]) = ports 0 0 0 0 := by decide
theorem test_spread3 : answer .inf (cmd 2 [0xDEADBEEF]) = ports 0x08248249 0 0 0 := by decide
theorem test_spread3_14_bit_operand : answer W32 (cmd 2 [0x3FFF]) = ports 0x09249249 0 0 0 := by decide
theorem test_unspread3 : answer .inf (cmd 3 [0x09009209]) = ports 0x33B 0 0 0 := by decide
theorem test_unspread3_bit_28 : answer W32 (cmd 3 [0x10000000]) = ports 0 0 0 0 := by decide
theorem test_interleave2_four_chunks :
    answer .inf (cmd 4 [0x123456789ABCDEF0, 0x0FEDCBA987654321]) =
      ports 0x01AEADB2B19E9DC2C16E6D72715E5D02 0 0 0 := by decide
theorem test_interleave2_capacity :
    answer W32 (cmd 4 [0x12345678, 0x9ABCDEF0]) = ports 0xB3BCBF40 0 0 0 ∧
    answer W64 (cmd 4 [0x12345678, 0x9ABCDEF0]) = ports 0x838C8FB0B3BCBF40 0 0 0 := by decide
theorem test_deinterleave2 : answer W64 (cmd 5 [0xDEADBEEFCAFEBABE]) = ports 0xE36B8E46 0xBEFFBFFF 0 0 := by decide
theorem test_deinterleave2_three_chunks : answer .inf (cmd 5 [0x10000000000000000]) = ports 0x100000000 0 0 0 := by
  decide
theorem test_interleave3 : answer W32 (cmd 6 [0x2A5, 0x15A, 0x3C3]) = ports 0x2EB8A475 0 0 0 := by decide
theorem test_interleave3_wide_operands : answer W32 (cmd 6 [0x7FF, 0x400, 0xFFFFFFFF]) = ports 0x2DB6DB6D 0 0 0 := by
  decide
theorem test_deinterleave3 : answer W64 (cmd 7 [0x123456789]) = ports 0x14B 0x1BC 0x214 0 := by decide
theorem test_deinterleave3_bit_30 : answer W32 (cmd 7 [0x7FFFFFFF]) = ports 0x3FF 0x3FF 0x3FF 0 := by decide
theorem test_interleave4_operand_order :
    answer W32 (cmd 8 [0x12, 0x34, 0x56, 0x78]) = ports 0x0CAF8650 0 0 0 := by decide
theorem test_interleave4_capacity :
    answer W32 (cmd 8 [0xDEAD, 0xBEEF, 0xCAFE, 0xBABE]) = ports 0xF6FCFFE3 0 0 0 ∧
    answer W64 (cmd 8 [0xDEAD, 0xBEEF, 0xCAFE, 0xBABE]) = ports 0xF5ABF3F0F6FCFFE3 0 0 0 := by decide
theorem test_deinterleave4 : answer W64 (cmd 9 [0x0123456789ABCDEF]) = ports 0x5555 0x3333 0x0F0F 0x00FF := by decide
theorem test_deinterleave4_75_bits : answer .inf (cmd 9 [0x4410454401141044141]) = ports 0x12345 0 0x6789A 0 := by
  decide

/-! ### The two refusals (30_encoding.md R62, 70_reset_and_hazards.md R176), and short runs (section 4, P5, P6) -/

theorem test_refuse_reserved : refusal W32 (cmd 0b1100#4 [1, 2, 3, 4]) = some (.reservedOp 0b1100#4) := by decide
theorem test_refuse_indefinite_op :
    refusal W32 ⟨.indefinite, .definite 1, .definite 2, .definite 3, .definite 4⟩ = some (.indefiniteInput .op) := by
  decide
theorem test_refuse_indefinite_operand :
    refusal W32 (cmd 4 [1]) = some (.indefiniteInput (.operand .b)) := by decide
theorem test_reset_is_refused : ∃ r, step State.reset = .refused r := ⟨.indefiniteInput .op, rfl⟩
theorem test_run_p5 :
    answers W32 [cmd 4 [0x12345678, 0x9ABCDEF0], cmd 5 [0xB3BCBF40]] =
      some [.definite ⟨0xB3BCBF40, 0, 0, 0⟩, .definite ⟨0x5678, 0xDEF0, 0, 0⟩] := by decide
theorem test_run_p6 : answers W32 [cmd 12 [1, 2, 3, 4], cmd 0 [1]] = none := by decide
theorem test_negative_pattern :
    W32.pattern (-1) = some 0xFFFFFFFF ∧ W32.pattern (-2 ^ 31) = some 0x80000000 ∧
    PortWidth.inf.pattern (-1) = none := by decide
theorem test_expressible :
    W32.expressible (-2 ^ 31) = true ∧ W32.expressible (-2 ^ 31 - 1) = false ∧ W32.expressible (2 ^ 32 - 1) = true ∧
    W32.expressible 0x100000000 = false ∧ W64.expressible 0x100000000 = true := by decide

/-! ### Witnesses: the hypotheses of each statement are met together by concrete data -/

/-- A 32-bit instance that has answered `interleave2(3, 5)`; port `c` carries nothing definite, port `d` carries 7. -/
def settled32 : State :=
  ⟨W32, ⟨.definite 4, .definite 3, .definite 5, .indefinite, .definite 7⟩, .definite ⟨0x27, 0, 0, 0⟩⟩

theorem witness_OpCodesSelectTheirOperations :
    10 ≤ (0b1010#4).toNat ∧ 10 ≤ (0b1111#4).toNat ∧ ¬ 10 ≤ (0b1001#4).toNat := by decide

theorem witness_DecodeAndEncodeAgree :
    decode (encode (.interleave2 3 5)) = .ok (.interleave2 3 5) ∧
    decode settled32.input = .ok (.interleave2 3 5) ∧ settled32.input ≠ encode (.interleave2 3 5) := by decide

theorem witness_UnusedPortsAreIgnored_next :
    settled32.input.op = .definite 4 ∧ OperandPort.c ∉ operandPorts 4 ∧ step settled32 = .next settled32 :=
  ⟨rfl, by decide, rfl⟩
theorem witness_UnusedPortsAreIgnored_refused :
    (presenting W32 (cmd 4 [3])).input.op = .definite 4 ∧ OperandPort.d ∉ operandPorts 4 ∧
    step (presenting W32 (cmd 4 [3])) = .refused (.indefiniteInput (.operand .b)) := ⟨rfl, by decide, rfl⟩
theorem witness_UnusedPortsAreIgnored_one_result :
    exec (.interleave2 3 5) settled32 = .next settled32 ∧ settled32.output = .definite ⟨0x27, 0, 0, 0⟩ ∧
    (Instr.interleave2 3 5).opCode ∈ [0#4, 1#4, 2#4, 3#4, 4#4, 6#4, 8#4] := ⟨rfl, rfl, by decide⟩
theorem witness_UnusedPortsAreIgnored_two_results :
    exec (.deinterleave2 0x27) settled32 = .next (settled32.withResponse ⟨3, 5, 0, 0⟩) ∧
    (Instr.deinterleave2 0x27).opCode = 5#4 := ⟨rfl, rfl⟩
theorem witness_UnusedPortsAreIgnored_three_results :
    exec (.deinterleave3 0x173) settled32 = .next (settled32.withResponse ⟨5, 3, 6, 0⟩) ∧
    (Instr.deinterleave3 0x173).opCode = 7#4 := ⟨rfl, rfl⟩

theorem witness_ReservedCodesAreRefused :
    (presenting W32 (cmd 0b1010#4 [])).input.op = .definite 0b1010#4 ∧ 10 ≤ (0b1010#4).toNat := by decide

theorem witness_IndefiniteUsedInputIsRefused_op : State.reset.input.op = .indefinite := by decide
theorem witness_IndefiniteUsedInputIsRefused_operand :
    (presenting W32 (cmd 0b1001#4 [])).input.op = .definite 0b1001#4 ∧ (0b1001#4).toNat < 10 ∧
    ∃ p ∈ operandPorts 0b1001#4, (presenting W32 (cmd 0b1001#4 [])).input.operand p = .indefinite :=
  ⟨rfl, by decide, .a, by decide, rfl⟩
theorem witness_IndefiniteUsedInputIsRefused_answered :
    settled32.input.op = .definite 4 ∧ (4#4).toNat < 10 ∧
    (∀ p ∈ operandPorts 4, settled32.input.operand p ≠ .indefinite) ∧ settled32.input.c = .indefinite := by decide

theorem witness_StepRunsTheDecodedInstruction : decode settled32.input = .ok (.interleave2 3 5) := by decide

theorem witness_TableWordRunsAsTheNextStep :
    decodeTableWord 8 0 = some (.spread2 0) ∧ decodeTableWord 8 9 = some (.deinterleave4 0) ∧ 9 < 10 := by decide

theorem witness_ResultsAreTruncatedOnce : decode settled32.input = .ok (.interleave2 3 5) := by decide

theorem witness_TruncationTouchesOnlyTwoCodes :
    W32.wf = true ∧ PortWidth.inf.wf = true ∧
    W32.fits (2 ^ 32 - 1) = true ∧ PortWidth.inf.fits (2 ^ 70) = true := by decide

theorem witness_ResponseDependsOnTheCommandAlone :
    settled32.width = ({ settled32 with output := .indefinite } : State).width ∧
    settled32.input = ({ settled32 with output := .indefinite } : State).input ∧
    step settled32 = .next settled32 := ⟨rfl, rfl, rfl⟩

theorem witness_StepIsIdempotent : step (presenting W32 settled32.input) = .next settled32 := rfl

theorem witness_OnlyWindowBitsAffectTheResponse :
    settled32.width.wf = true ∧ 0x18000 % 2 ^ 16 = 0x8000 % 2 ^ 16 ∧
    0xC0000000 &&& 0x55555555 = 0x40000000 &&& 0x55555555 ∧ 0x600 % 2 ^ 10 = 0x200 % 2 ^ 10 ∧
    0x18000000 &&& 0x09249249 = 0x08000000 &&& 0x09249249 ∧
    (settled32.width.share 2).trunc 0x18000 = (settled32.width.share 2).trunc 0x8000 ∧
    settled32.width.fits 0xFFFFFFFF = true ∧ 0x60000000 % 2 ^ 30 = 0x20000000 % 2 ^ 30 ∧
    (settled32.width.share 4).trunc 0x180 = (settled32.width.share 4).trunc 0x80 := by decide
theorem witness_OnlyWindowBitsAffectTheResponse_same_response :
    exec (.deinterleave2 0xFFFFFFFF) settled32 = exec (.deinterleave2 0xFFFFFFFF) settled32 ∧
    exec (.deinterleave4 0xFFFFFFFF) settled32 = exec (.deinterleave4 0xFFFFFFFF) settled32 := ⟨rfl, rfl⟩

theorem witness_StepKeepsTheInvariant :
    (presenting W32 settled32.input).inv = true ∧ step (presenting W32 settled32.input) = .next settled32 :=
  ⟨by decide, rfl⟩

theorem witness_HostMovesKeepTheInvariant :
    settled32.inv = true ∧ (cmd 8 [2 ^ 32 - 1, 0, 0, 0]).fits settled32.width = true ∧
    (Port.definite (2 ^ 32 - 1)).fits settled32.width = true := by decide

theorem witness_OnlyAUsedInputDisturbsTheResponse :
    settled32.input.uses .b = true ∧ settled32.input.uses .c = false ∧ settled32.settled = true ∧
    settled32.output = .definite ⟨0x27, 0, 0, 0⟩ := by decide

theorem witness_AdmittedCommandsComplete :
    (cmd 8 [2 ^ 32 - 1, 0, 0, 0]).admitted State.reset.width = true ∧ (cmd 8 [2 ^ 32 - 1, 0, 0, 0]).admitted W32 = true := by
  decide

theorem witness_RunAnswersEveryCommand :
    List.Forall₂ (fun c i => decode c = .ok i) [cmd 4 [3, 5], cmd 5 [0x27]] [.interleave2 3 5, .deinterleave2 0x27] :=
  .cons (by decide) (.cons (by decide) .nil)

theorem witness_RunIsRefusedAtAReservedCode :
    (∀ c ∈ [cmd 4 [3, 5], cmd 5 [0x27]], ∃ i, decode c = .ok i) ∧
    (cmd 0b1100#4 [1, 2, 3, 4]).op = .definite 0b1100#4 ∧ 10 ≤ (0b1100#4).toNat := by
  refine ⟨fun c hc => ?_, by decide, by decide⟩
  simp only [List.mem_cons, List.not_mem_nil, or_false] at hc
  rcases hc with rfl | rfl
  · exact ⟨.interleave2 3 5, by decide⟩
  · exact ⟨.deinterleave2 0x27, by decide⟩

/-- For the statements that follow a pseudocode: the width premise, and the port premises of each operation. -/
theorem witness_FollowsItsPseudocode_width :
    (presenting W32 (cmd 0 [])).width.wf = true ∧ (presenting .inf (cmd 0 [])).width.wf = true := by decide
theorem witness_FollowsItsPseudocode_one_operand : ∀ op : OpCode,
    (presenting W32 (cmd op [0xFFFF])).input.op = .definite op ∧
    (presenting W32 (cmd op [0xFFFF])).input.a = .definite 0xFFFF := fun _ => ⟨rfl, rfl⟩
theorem witness_Interleave2FollowsItsPseudocode :
    settled32.input.op = .definite 0b0100#4 ∧ settled32.input.a = .definite 3 ∧
    settled32.input.b = .definite 5 := by decide
theorem witness_Interleave3FollowsItsPseudocode :
    (presenting W32 (cmd 6 [5, 3, 6])).width.wf = true ∧
    (presenting W32 (cmd 6 [5, 3, 6])).input.op = .definite 0b0110#4 ∧
    (presenting W32 (cmd 6 [5, 3, 6])).input.a = .definite 5 ∧
    (presenting W32 (cmd 6 [5, 3, 6])).input.b = .definite 3 ∧
    (presenting W32 (cmd 6 [5, 3, 6])).input.c = .definite 6 := by decide
theorem witness_Interleave4FollowsItsPseudocode :
    (presenting W32 (cmd 8 [1, 2, 3, 4])).input.op = .definite 0b1000#4 ∧
    (presenting W32 (cmd 8 [1, 2, 3, 4])).input.a = .definite 1 ∧
    (presenting W32 (cmd 8 [1, 2, 3, 4])).input.b = .definite 2 ∧
    (presenting W32 (cmd 8 [1, 2, 3, 4])).input.c = .definite 3 ∧
    (presenting W32 (cmd 8 [1, 2, 3, 4])).input.d = .definite 4 := by decide
theorem witness_Deinterleave2FollowsItsPseudocode :
    settled32.width.wf = true ∧ settled32.width.fits (2 ^ 32 - 1) = true ∧ PortWidth.inf.fits (2 ^ 70) = true := by
  decide
theorem witness_Deinterleave4FollowsItsPseudocode :
    settled32.width.wf = true ∧ settled32.width.fits 0xDEADBEEF = true ∧
    deinterleave2 0xDEADBEEF = (0xE36B, 0xBEFF) ∧ deinterleave2 0xE36B = (0x99, 0xD7) ∧
    deinterleave2 0xBEFF = (0x6F, 0xFF) := by decide

theorem witness_Spread2PutsBitIAtBit2I :
    15 < 16 ∧ (31 % 2 = 1 ∨ 30 < 31) ∧ (32 % 2 = 1 ∨ 30 < 32) ∧ 0xFFFF ≤ 0xFFFF ∧
    spread2 0xFFFF = spread2 0xFFFF := by decide
theorem witness_Unspread2CollectsTheEvenBits : ∀ i < 16, bit 0xAAAAAAAA (2 * i) = bit 0 (2 * i) := by decide
theorem witness_Spread3AndUnspread3MoveEveryThirdBit :
    9 < 10 ∧ (28 % 3 ≠ 0 ∨ 27 < 28) ∧ (30 % 3 ≠ 0 ∨ 27 < 30) ∧ 0x3FF ≤ 0x3FF ∧ spread3 0x3FF = spread3 0x3FF := by
  decide
theorem witness_RoundsMoveGroupsOfBits : 0 ≤ 4 ∧ 4 ≤ 4 := by decide
theorem witness_TwoWayPrimitivesAreInverse : 0xFFFF < 2 ^ 16 := by decide
theorem witness_ThreeWayPrimitivesAreInverse : 1023 < 1024 := by decide
theorem witness_OrAndXorAgreeInEveryRound :
    spread2Rounds ∈ [spread2Rounds, unspread2Rounds, spread3Rounds, unspread3Rounds] ∧
    spread2Rounds.rounds[3]? = some ⟨1, 0x55555555⟩ ∧
    unspread3Rounds ∈ [unspread2Rounds, spread3Rounds, unspread3Rounds] ∧
    unspread3Rounds.rounds[3]? = some ⟨16, 0x000003FF⟩ := by decide

theorem witness_FirstOperandOwnsTheLowestPosition : 9 < 10 := by decide
theorem witness_CodeAndResultLengths : bitlen 0xFF ≤ 8 ∧ bitlen 0x80 ≤ 8 ∧ bitlen 0 ≤ 8 ∧ bitlen 1 ≤ 8 := by decide
theorem witness_IterationCountIsNotObservable :
    ceilDiv (max (bitlen 0) (bitlen 0)) 16 ≤ 1 ∧ ceilDiv (max (bitlen 0x10000) (bitlen 1)) 16 ≤ 2 ∧
    ceilDiv (bitlen 0x100000000) 32 ≤ 2 := by decide
theorem witness_ChunkCellsRealiseThePairOperators :
    (presenting W64 (cmd 5 [])).width = .bits (32 * 2) ∧
    (presenting W64 (cmd 5 [])).width.fits (2 ^ 64 - 1) = true := by decide
theorem witness_PairCapacityIsHalfTheWidth :
    settled32.width.wf = true ∧ (settled32.width.share 2).fits 0xFFFF = true ∧
    (settled32.width.share 2).fits 0x10000 = false := by decide
theorem witness_QuadCapacityIsAQuarterOfTheWidth :
    settled32.width.wf = true ∧ (settled32.width.share 4).fits 0xFF = true ∧
    (settled32.width.share 4).fits 0x100 = false := by decide
theorem witness_PairRoundTrip : settled32.width.wf = true ∧ (presenting .inf settled32.input).width.wf = true := by
  decide
theorem witness_TripleRoundTrip : settled32.width.wf = true ∧ 1023 < 1024 ∧ 0 < 1024 := by decide
theorem witness_QuadRoundTrip : settled32.width.wf = true ∧ (presenting .inf settled32.input).width.wf = true := by
  decide
theorem witness_EveryNaturalIsACode :
    settled32.width.wf = true ∧ settled32.width.fits (2 ^ 32 - 1) = true ∧ 2 ^ 30 - 1 < 2 ^ 30 := by decide
theorem witness_OneOperandBitIsOneCodeBit :
    11 = 1 * 2 ^ (2 + 1) + (2 ^ 2 - 1) ∧ 4 = 2 * 2 ^ (0 + 1) + (2 ^ 0 - 1) ∧ 9 < 10 ∧ 10 ≤ 10 := by decide
theorem witness_QuadCommandIsThreePairCommands :
    settled32.width.wf = true ∧ settled32.width.fits 0xDEADBEEF = true := by decide
theorem witness_SourceLiteralVectors :
    settled32.width.wf = true ∧ (presenting .inf settled32.input).width.wf = true := by decide
theorem witness_NegativeInputIsReadAsItsBitPattern :
    (-2 ^ 32 : Int) ≤ 2 * -2 ^ 31 ∧ (-2 ^ 31 : Int) < 0 ∧ (-2 ^ 32 : Int) ≤ 2 * -1 ∧ (-1 : Int) < 0 ∧
    2 ^ 32 - 1 < 2 ^ 32 ∧ (9#4).toNat < 10 ∧ settled32.width.expressible (-2 ^ 31) = true ∧
    settled32.width.expressible (-1) = true ∧ settled32.width.expressible 0 = true ∧
    settled32.width.expressible (2 ^ 32 - 1) = true := by decide
theorem witness_AnyIntegerIsPresentedModuloTheWidth :
    settled32.width = .bits 32 ∧ (9#4).toNat < 10 ∧ settled32.width.expressible (-2 ^ 31 - 1) = false ∧
    settled32.width.expressible (2 ^ 32) = false := by decide

end Sys2Proof.Tests
end

namespace Sys2Proof

/-! ### Sums of values without a common bit -/

/-- Values that share no bit add without a carry. -/
theorem add_eq_or_of_and_eq_zero {u v : Nat} (h : u &&& v = 0) : u + v = u ||| v := by
  have hlt : u + v < 2 ^ (u + v) := Nat.lt_two_pow_self
  have hu : u % 2 ^ (u + v) = u := Nat.mod_eq_of_lt (by omega)
  have hv : v % 2 ^ (u + v) = v := Nat.mod_eq_of_lt (by omega)
  have hadd := BitVec.add_eq_or_of_and_eq_zero (BitVec.ofNat (u + v) u) (BitVec.ofNat (u + v) v)
    (by rw [← BitVec.ofNat_and, h])
  simpa [hu, hv, Nat.mod_eq_of_lt hlt] using congrArg BitVec.toNat hadd

theorem or_and_eq_zero {u v t : Nat} (hu : u &&& t = 0) (hv : v &&& t = 0) : (u ||| v) &&& t = 0 := by
  rw [Nat.and_or_distrib_right, hu, hv, Nat.or_zero]

/-- Operands scattered at different offsets share no bit. -/
theorem scatter_and_scatter {stride : Nat} (o p : Nat) (h : o < p ∧ p < stride) (u m v n : Nat) :
    scatter stride o u m &&& scatter stride p v n = 0 := by
  obtain ⟨hlt, hp⟩ := h
  refine Nat.eq_of_testBit_eq fun k => ?_
  rw [Nat.testBit_and, testBit_scatter (Nat.lt_trans hlt hp), testBit_scatter hp, Nat.zero_testBit]
  by_cases hk : k % stride = o <;> simp [hk, Nat.ne_of_lt hlt]

/-! ### Each primitive as wiring: it is additive over its combining operator, so its basis values `2^j` decide it -/

/-- Values without a common bit combine by `|` and by `^` to the same value. -/
theorem testBit_combine_of_exclusive (c : Combine) {u v i : Nat} (h : (u.testBit i && v.testBit i) = false) :
    (c.apply u v).testBit i = (u.testBit i || v.testBit i) := by
  cases c with
  | or => exact Nat.testBit_or ..
  | xor =>
    rw [Combine.apply, Nat.testBit_xor]
    revert h
    cases u.testBit i <;> cases v.testBit i <;> decide

theorem Combine.apply_and (c : Combine) (u v m : Nat) : c.apply u v &&& m = c.apply (u &&& m) (v &&& m) := by
  cases c
  · exact Nat.and_or_distrib_right ..
  · exact Nat.and_xor_distrib_right ..

theorem Direction.shift_combine (d : Direction) (c : Combine) (u v k : Nat) :
    d.shift (c.apply u v) k = c.apply (d.shift u k) (d.shift v k) := by
  cases d <;> cases c
  · exact Nat.shiftLeft_or_distrib
  · exact Nat.shiftLeft_xor_distrib
  · exact Nat.shiftRight_or_distrib
  · exact Nat.shiftRight_xor_distrib

theorem Combine.apply_apply_comm (c : Combine) (u v u' v' : Nat) :
    c.apply (c.apply u v) (c.apply u' v') = c.apply (c.apply u u') (c.apply v v') := by
  cases c <;> simp only [Combine.apply] <;> ac_rfl

theorem Primitive.round_combine (p : Primitive) (u v : Nat) (r : Round) :
    p.round (p.combine.apply u v) r = p.combine.apply (p.round u r) (p.round v r) := by
  simp only [Primitive.round, Direction.shift_combine, Combine.apply_apply_comm, Combine.apply_and]

theorem Primitive.foldl_round_combine (p : Primitive) (rs : List Round) (u v : Nat) :
    rs.foldl p.round (p.combine.apply u v) = p.combine.apply (rs.foldl p.round u) (rs.foldl p.round v) := by
  induction rs generalizing u v with
  | nil => rfl
  | cons r rs ih => rw [List.foldl_cons, p.round_combine, ih, List.foldl_cons, List.foldl_cons]

/-- After any number of rounds a primitive is additive over its combining operator. -/
theorem Primitive.after_combine (p : Primitive) (k u v : Nat) :
    p.after k (p.combine.apply u v) = p.combine.apply (p.after k u) (p.after k v) := by
  simp only [Primitive.after, Combine.apply_and, Primitive.foldl_round_combine]

theorem Primitive.round_zero (p : Primitive) (r : Round) : p.round 0 r = 0 := by
  cases hc : p.combine <;> cases hd : p.direction <;>
    simp [Primitive.round, Combine.apply, Direction.shift, hc, hd]

theorem Primitive.after_zero (p : Primitive) (k : Nat) : p.after k 0 = 0 := by
  rw [Primitive.after, Nat.zero_and, List.foldl_fixed' p.round_zero]

/-- Only the operand bits below an entry mask's length reach a primitive. -/
theorem Primitive.after_mod (p : Primitive) {len : Nat} (h : p.entry < 2 ^ len) (k n : Nat) :
    p.after k (n % 2 ^ len) = p.after k n := by
  have hentry : n % 2 ^ len &&& p.entry = n &&& p.entry := by
    rw [← Nat.mod_eq_of_lt (Nat.lt_of_le_of_lt Nat.and_le_right h : n &&& p.entry < 2 ^ len), Nat.and_mod_two_pow,
      Nat.mod_eq_of_lt h]
  rw [Primitive.after, Primitive.after, hentry]

/-- One bit more of the operand. -/
theorem Combine.mod_two_pow_succ (c : Combine) (n len : Nat) :
    n % 2 ^ (len + 1) = c.apply (n % 2 ^ len) (bit n len * 2 ^ len) := by
  refine Nat.eq_of_testBit_eq fun i => ?_
  have hb : (bit n len * 2 ^ len).testBit i = (n.testBit len && decide (len = i)) := by
    rw [bit_eq_toNat_testBit]
    cases n.testBit len <;> simp [Nat.testBit_two_pow]
  have hm := Nat.testBit_mod_two_pow n len i
  rw [testBit_combine_of_exclusive, hm, hb, Nat.testBit_mod_two_pow]
  · rcases Nat.lt_trichotomy i len with h | h | h
    · simp [h, Nat.lt_succ_of_lt h, Nat.ne_of_gt h]
    · simp [h]
    · simp [show ¬ i < len + 1 by omega, show ¬ i < len by omega, show len ≠ i by omega]
  · rw [hm, hb]
    by_cases h : len = i <;> simp [h]

/-- If on each operand bit alone result bit `i` is the bit `source i` where `wired i` holds, then so it is on every
operand: additivity puts the basis values together. -/
theorem Primitive.testBit_after_of_basis {p : Primitive} {k len : Nat} {wired : Nat → Bool} {source : Nat → Nat}
    (hentry : p.entry < 2 ^ len)
    (hbasis : ∀ j < len, ∀ i, (p.after k (2 ^ j)).testBit i = (wired i && decide (source i = j))) (n i : Nat) :
    (p.after k n).testBit i = (wired i && decide (source i < len) && n.testBit (source i)) := by
  rw [← p.after_mod hentry]
  clear hentry
  induction len with
  | zero => simp [Nat.mod_one, p.after_zero]
  | succ len ih =>
    have ih := ih fun j hj => hbasis j (Nat.lt_succ_of_lt hj)
    have hbit : (p.after k (bit n len * 2 ^ len)).testBit i =
        (n.testBit len && (wired i && decide (source i = len))) := by
      rw [bit_eq_toNat_testBit, ← hbasis len (Nat.lt_succ_self len) i]
      cases n.testBit len <;> simp [p.after_zero]
    rw [p.combine.mod_two_pow_succ, p.after_combine, testBit_combine_of_exclusive, ih, hbit]
    · rcases Nat.lt_trichotomy (source i) len with h | h | h
      · simp [h, Nat.ne_of_lt h, Nat.lt_succ_of_lt h]
      · simp [h, Bool.and_comm]
      · simp [show ¬ source i < len by omega, show ¬ source i < len + 1 by omega, show source i ≠ len by omega]
    · rw [ih, hbit]
      by_cases h : source i = len <;> simp [h]

/-- A primitive that sends operand bit `j` to position `stride*j` scatters its operand. -/
theorem Primitive.run_eq_scatter {p : Primitive} {stride len : Nat} (hs : 0 < stride) (hentry : p.entry < 2 ^ len)
    (hbasis : ∀ j < len, p.run (2 ^ j) = 2 ^ (stride * j)) (n : Nat) : p.run n = scatter stride 0 n len := by
  refine Nat.eq_of_testBit_eq fun i => ?_
  rw [testBit_scatter hs, Primitive.run_eq_after]
  refine Primitive.testBit_after_of_basis (wired := fun i => decide (i % stride = 0))
    (source := fun i => i / stride) hentry (fun j hj i => ?_) n i
  rw [← Primitive.run_eq_after, hbasis j hj, Nat.testBit_two_pow, ← Bool.decide_and]
  have hdm := Nat.div_add_mod i stride
  refine decide_eq_decide.2 ⟨fun h => ?_, fun ⟨hm, hq⟩ => ?_⟩
  · rw [← h]
    exact ⟨Nat.mul_mod_right .., Nat.mul_div_cancel_left j hs⟩
  · rwa [hm, hq] at hdm

/-- A primitive that sends operand bit `stride*i` to position `i` and drops the others gathers its operand. -/
theorem Primitive.run_eq_gather {p : Primitive} {stride len : Nat} (hs : 0 < stride)
    (hentry : p.entry < 2 ^ (stride * len))
    (hbasis : ∀ j < stride * len, p.run (2 ^ j) = if j % stride = 0 then 2 ^ (j / stride) else 0) (n : Nat) :
    p.run n = gather stride 0 n len := by
  refine Nat.eq_of_testBit_eq fun i => ?_
  have hlt : stride * i < stride * len ↔ i < len := Nat.mul_lt_mul_left hs
  rw [testBit_gather, Primitive.run_eq_after, Primitive.testBit_after_of_basis (wired := fun _ => true)
    (source := fun i => stride * i) hentry (fun j hj i => ?_)]
  · simp [hlt]
  · rw [← Primitive.run_eq_after, hbasis j hj, Bool.true_and]
    have hdm := Nat.div_add_mod j stride
    split
    · next hm =>
      rw [Nat.testBit_two_pow]
      refine decide_eq_decide.2 ⟨fun h => by rwa [hm, h] at hdm, fun h => ?_⟩
      rw [← h, Nat.mul_div_cancel_left i hs]
    · next hm =>
      have hne : stride * i ≠ j := fun h => hm (h ▸ Nat.mul_mod_right ..)
      simp [hne]

/-! ### The closed forms of the primitives and of the triple operators (R77, R81, R85, R89, R122, R126) -/

theorem spread2_eq_scatter (n : Nat) : spread2 n = scatter 2 0 n 16 :=
  Primitive.run_eq_scatter (by decide) (by decide) (by decide) n

theorem unspread2_eq_gather (n : Nat) : unspread2 n = gather 2 0 n 16 :=
  Primitive.run_eq_gather (by decide) (by decide) (by decide) n

theorem spread3_eq_scatter (n : Nat) : spread3 n = scatter 3 0 n 10 :=
  Primitive.run_eq_scatter (by decide) (by decide) (by decide) n

theorem unspread3_eq_gather (n : Nat) : unspread3 n = gather 3 0 n 10 :=
  Primitive.run_eq_gather (by decide) (by decide) (by decide) n

/-- A shift moves scattered bits to another offset. -/
theorem scatter_shiftLeft (stride o p v len : Nat) : scatter stride o v len <<< p = scatter stride (o + p) v len := by
  induction len with
  | zero => simp [scatter]
  | succ len ih =>
    rw [Nat.shiftLeft_eq] at ih ⊢
    rw [scatter, scatter, Nat.add_mul, ih, Nat.mul_assoc, ← Nat.pow_add, Nat.add_assoc]

/-- A shift moves the offset the gathered bits are taken from. -/
theorem gather_shiftRight (stride o p v len : Nat) : gather stride o (v >>> p) len = gather stride (o + p) v len := by
  refine Nat.eq_of_testBit_eq fun i => ?_
  rw [testBit_gather, testBit_gather, Nat.testBit_shiftRight, Nat.add_comm p, Nat.add_assoc]

theorem interleave3_eq_scatter (x y z : Nat) :
    interleave3 x y z = scatter 3 0 x 10 + scatter 3 1 y 10 + scatter 3 2 z 10 := by
  have hxy := scatter_and_scatter (stride := 3) 0 1 (by decide) x 10 y 10
  have hxz := scatter_and_scatter (stride := 3) 0 2 (by decide) x 10 z 10
  have hyz := scatter_and_scatter (stride := 3) 1 2 (by decide) y 10 z 10
  rw [add_eq_or_of_and_eq_zero hxy, add_eq_or_of_and_eq_zero (or_and_eq_zero hxz hyz)]
  simp only [interleave3, spread3_eq_scatter, scatter_shiftLeft, Nat.zero_add]

theorem deinterleave3_eq_gather (n : Nat) :
    deinterleave3 n = (gather 3 0 n 10, gather 3 1 n 10, gather 3 2 n 10) := by
  rw [deinterleave3, unspread3_eq_gather, unspread3_eq_gather, unspread3_eq_gather, gather_shiftRight,
    gather_shiftRight]

/-! ### The pair operators, bit by bit (R105, R107): chunk by chunk, then with enough chunks for the operands -/

theorem testBit_unspread2 (n i : Nat) : (unspread2 n).testBit i = (decide (i < 16) && n.testBit (2 * i)) := by
  rw [unspread2_eq_gather, testBit_gather, Nat.add_zero]

theorem testBit_unspread2_codeChunk (n i k : Nat) :
    (unspread2 (codeChunk n i)).testBit k = (decide (k < 16) && n.testBit (32 * i + 2 * k)) := by
  rw [testBit_unspread2, testBit_codeChunk]
  by_cases hk : k < 16
  · simp [show 2 * k < 32 by omega]
  · simp [hk]

theorem testBit_unspread2_codeChunk_shiftRight (n i k : Nat) :
    (unspread2 (codeChunk n i >>> 1)).testBit k = (decide (k < 16) && n.testBit (32 * i + (2 * k + 1))) := by
  rw [testBit_unspread2, Nat.testBit_shiftRight, testBit_codeChunk, Nat.add_comm 1]
  by_cases hk : k < 16
  · simp [show 2 * k + 1 < 32 by omega]
  · simp [hk]

theorem testBit_pairChunk (x y i k : Nat) :
    (pairChunk x y i).testBit k =
      (decide (k < 32) && if k % 2 = 0 then x.testBit (16 * i + k / 2) else y.testBit (16 * i + k / 2)) := by
  rw [pairChunk, spread2_eq_scatter, spread2_eq_scatter, scatter_shiftLeft, Nat.testBit_or,
    testBit_scatter (by decide), testBit_scatter (by decide), testBit_lane, testBit_lane]
  have hlt : k / 2 < 16 ↔ k < 32 := by omega
  rcases Nat.mod_two_eq_zero_or_one k with hk | hk <;> simp [hk, hlt]

theorem testBit_interleave2Loop (cnt x y k : Nat) :
    (interleave2Loop cnt x y).testBit k =
      (decide (k < 32 * cnt) && if k % 2 = 0 then x.testBit (k / 2) else y.testBit (k / 2)) := by
  induction cnt with
  | zero => simp [interleave2Loop]
  | succ cnt ih =>
    rw [interleave2Loop_succ, Nat.testBit_or, Nat.testBit_shiftLeft, ih, testBit_pairChunk]
    by_cases hk : k < 32 * cnt
    · simp [hk, show ¬ 32 * cnt ≤ k by omega, show k < 32 * (cnt + 1) by omega]
    · have hpar : (k - 32 * cnt) % 2 = k % 2 := by omega
      have hhalf : 16 * cnt + (k - 32 * cnt) / 2 = k / 2 := by omega
      have hlt : k - 32 * cnt < 32 ↔ k < 32 * (cnt + 1) := by omega
      simp [hk, hpar, hhalf, hlt, show 32 * cnt ≤ k by omega]

/-- Code bit `2j` is bit `j` of the first operand, code bit `2j+1` bit `j` of the second (R105). -/
theorem testBit_interleave2 (x y k : Nat) :
    (interleave2 x y).testBit k = if k % 2 = 0 then x.testBit (k / 2) else y.testBit (k / 2) := by
  rw [interleave2, testBit_interleave2Loop]
  by_cases hk : k < 32 * ceilDiv (max (bitlen x) (bitlen y)) 16
  · simp [hk]
  · have hlen := (ceilDiv_le_iff (by decide : 0 < 16) _).1 (Nat.le_refl (ceilDiv (max (bitlen x) (bitlen y)) 16))
    have hx : x.testBit (k / 2) = false := testBit_of_bitlen_le (by omega)
    have hy : y.testBit (k / 2) = false := testBit_of_bitlen_le (by omega)
    simp [hx, hy]

theorem testBit_deinterleave2Loop (cnt n k : Nat) :
    (deinterleave2Loop cnt n).1.testBit k = (decide (k < 16 * cnt) && n.testBit (2 * k)) ∧
      (deinterleave2Loop cnt n).2.testBit k = (decide (k < 16 * cnt) && n.testBit (2 * k + 1)) := by
  induction cnt with
  | zero => simp [deinterleave2Loop]
  | succ cnt ih =>
    obtain ⟨ih1, ih2⟩ := ih
    rw [deinterleave2Loop_succ]
    simp only [Nat.testBit_or, Nat.testBit_shiftLeft, ih1, ih2, testBit_unspread2_codeChunk,
      testBit_unspread2_codeChunk_shiftRight]
    by_cases hk : k < 16 * cnt
    · simp [hk, show ¬ 16 * cnt ≤ k by omega, show k < 16 * (cnt + 1) by omega]
    · have heven : 32 * cnt + 2 * (k - 16 * cnt) = 2 * k := by omega
      have hodd : 32 * cnt + (2 * (k - 16 * cnt) + 1) = 2 * k + 1 := by omega
      have hlt : k - 16 * cnt < 16 ↔ k < 16 * (cnt + 1) := by omega
      simp [hk, heven, hodd, hlt, show 16 * cnt ≤ k by omega]

theorem testBit_deinterleave2 (n k : Nat) :
    (deinterleave2 n).1.testBit k = n.testBit (2 * k) ∧ (deinterleave2 n).2.testBit k = n.testBit (2 * k + 1) := by
  obtain ⟨h1, h2⟩ := testBit_deinterleave2Loop (ceilDiv (bitlen n) 32) n k
  rw [deinterleave2, h1, h2]
  by_cases hk : k < 16 * ceilDiv (bitlen n) 32
  · simp [hk]
  · have hlen := (ceilDiv_le_iff (by decide : 0 < 32) _).1 (Nat.le_refl (ceilDiv (bitlen n) 32))
    have heven : n.testBit (2 * k) = false := testBit_of_bitlen_le (by omega)
    have hodd : n.testBit (2 * k + 1) = false := testBit_of_bitlen_le (by omega)
    simp [heven, hodd]

/-- The first result holds the operand's even bits (R107). -/
theorem testBit_deinterleave2_fst (n k : Nat) : (deinterleave2 n).1.testBit k = n.testBit (2 * k) :=
  (testBit_deinterleave2 n k).1

/-- The second result holds the operand's odd bits (R107). -/
theorem testBit_deinterleave2_snd (n k : Nat) : (deinterleave2 n).2.testBit k = n.testBit (2 * k + 1) :=
  (testBit_deinterleave2 n k).2

/-! ### The closed forms of the pair and quad operators (R105, R107, R137, R141) -/

/-- Where a scattered operand is taken whole, `bitlen` bits of it, the length bound says nothing. -/
theorem testBit_scatter_bitlen {stride offset : Nat} (ho : offset < stride) (v k : Nat) :
    (scatter stride offset v (bitlen v)).testBit k = (decide (k % stride = offset) && v.testBit (k / stride)) := by
  rw [testBit_scatter ho]
  by_cases hk : k / stride < bitlen v
  · simp [hk]
  · simp [hk, testBit_of_bitlen_le (Nat.le_of_not_lt hk)]

/-- A value whose bit `k` is operand bit `stride*k + offset` for every `k` is gathered from the whole operand. -/
theorem eq_gather_bitlen {stride offset u v : Nat} (hs : 0 < stride)
    (h : ∀ k, u.testBit k = v.testBit (stride * k + offset)) : u = gather stride offset v (bitlen v) := by
  refine Nat.eq_of_testBit_eq fun k => ?_
  rw [testBit_gather, h]
  by_cases hk : k < bitlen v
  · simp [hk]
  · have hle : k ≤ stride * k := Nat.le_mul_of_pos_left k hs
    simp [hk, testBit_of_bitlen_le (v := v) (i := stride * k + offset) (by omega)]

theorem interleave2_eq_scatter (x y : Nat) :
    interleave2 x y = scatter 2 0 x (bitlen x) + scatter 2 1 y (bitlen y) := by
  rw [add_eq_or_of_and_eq_zero (scatter_and_scatter 0 1 (by decide) ..)]
  refine Nat.eq_of_testBit_eq fun k => ?_
  rw [testBit_interleave2, Nat.testBit_or, testBit_scatter_bitlen (by decide), testBit_scatter_bitlen (by decide)]
  rcases Nat.mod_two_eq_zero_or_one k with hk | hk <;> simp [hk]

theorem deinterleave2_eq_gather (n : Nat) :
    deinterleave2 n = (gather 2 0 n (bitlen n), gather 2 1 n (bitlen n)) :=
  Prod.ext (eq_gather_bitlen (by decide) (testBit_deinterleave2_fst n))
    (eq_gather_bitlen (by decide) (testBit_deinterleave2_snd n))

/-- Code bit `4j+p` is bit `j` of the operand at place `p` (R137). -/
theorem testBit_interleave4 (w x y z k : Nat) :
    (interleave4 w x y z).testBit k =
      if k % 4 = 0 then w.testBit (k / 4) else if k % 4 = 1 then x.testBit (k / 4)
      else if k % 4 = 2 then y.testBit (k / 4) else z.testBit (k / 4) := by
  have hq : k / 2 / 2 = k / 4 := Nat.div_div_eq_div_mul ..
  rw [interleave4, testBit_interleave2, testBit_interleave2, testBit_interleave2, hq]
  have hk : k % 4 = 0 ∨ k % 4 = 1 ∨ k % 4 = 2 ∨ k % 4 = 3 := by omega
  rcases hk with hk | hk | hk | hk
  · simp [hk, show k % 2 = 0 by omega, show k / 2 % 2 = 0 by omega]
  · simp [hk, show k % 2 = 1 by omega, show k / 2 % 2 = 0 by omega]
  · simp [hk, show k % 2 = 0 by omega, show k / 2 % 2 = 1 by omega]
  · simp [hk, show k % 2 = 1 by omega, show k / 2 % 2 = 1 by omega]

theorem interleave4_eq_scatter (w x y z : Nat) :
    interleave4 w x y z =
      scatter 4 0 w (bitlen w) + scatter 4 1 x (bitlen x) + scatter 4 2 y (bitlen y) + scatter 4 3 z (bitlen z) := by
  have hdisjoint (o p : Nat) (h : o < p ∧ p < 4) (u v : Nat) :
      scatter 4 o u (bitlen u) &&& scatter 4 p v (bitlen v) = 0 := scatter_and_scatter o p h ..
  rw [add_eq_or_of_and_eq_zero (hdisjoint 0 1 (by decide) w x),
    add_eq_or_of_and_eq_zero (or_and_eq_zero (hdisjoint 0 2 (by decide) w y) (hdisjoint 1 2 (by decide) x y)),
    add_eq_or_of_and_eq_zero (or_and_eq_zero
      (or_and_eq_zero (hdisjoint 0 3 (by decide) w z) (hdisjoint 1 3 (by decide) x z))
      (hdisjoint 2 3 (by decide) y z))]
  refine Nat.eq_of_testBit_eq fun k => ?_
  simp only [testBit_interleave4, Nat.testBit_or, testBit_scatter_bitlen (by decide : 0 < 4),
    testBit_scatter_bitlen (by decide : 1 < 4), testBit_scatter_bitlen (by decide : 2 < 4),
    testBit_scatter_bitlen (by decide : 3 < 4)]
  have hk : k % 4 = 0 ∨ k % 4 = 1 ∨ k % 4 = 2 ∨ k % 4 = 3 := by omega
  rcases hk with hk | hk | hk | hk <;> simp [hk]

/-- Bit `k` of the result at place `p` is operand bit `4k+p` (R141). -/
theorem testBit_deinterleave4 (n k : Nat) :
    (deinterleave4 n).1.testBit k = n.testBit (4 * k) ∧ (deinterleave4 n).2.1.testBit k = n.testBit (4 * k + 1) ∧
      (deinterleave4 n).2.2.1.testBit k = n.testBit (4 * k + 2) ∧
      (deinterleave4 n).2.2.2.testBit k = n.testBit (4 * k + 3) := by
  have heven : 2 * (2 * k) = 4 * k := by omega
  have hodd : 2 * (2 * k + 1) = 4 * k + 2 := by omega
  simp only [deinterleave4, testBit_deinterleave2_fst, testBit_deinterleave2_snd, heven, hodd, and_self]

theorem deinterleave4_eq_gather (n : Nat) :
    deinterleave4 n =
      (gather 4 0 n (bitlen n), gather 4 1 n (bitlen n), gather 4 2 n (bitlen n), gather 4 3 n (bitlen n)) := by
  have hbits := testBit_deinterleave4 n
  simp only [forall_and] at hbits
  obtain ⟨hw, hx, hy, hz⟩ := hbits
  have hs : 0 < 4 := by decide
  exact Prod.ext (eq_gather_bitlen hs hw) (Prod.ext (eq_gather_bitlen hs hx)
    (Prod.ext (eq_gather_bitlen hs hy) (eq_gather_bitlen hs hz)))

end Sys2Proof

namespace Sys2Proof.Machine

/-- Every operation is wiring: the rounds and loops of the pseudocode give the closed forms (R98, R112). -/
theorem unboundedResults_eq_wiredResults (i : Instr) : unboundedResults i = wiredResults i := by
  cases i with
  | spread2 n => rw [unboundedResults, wiredResults, spread2_eq_scatter]
  | unspread2 n => rw [unboundedResults, wiredResults, unspread2_eq_gather]
  | spread3 n => rw [unboundedResults, wiredResults, spread3_eq_scatter]
  | unspread3 n => rw [unboundedResults, wiredResults, unspread3_eq_gather]
  | interleave2 x y => rw [unboundedResults, wiredResults, interleave2_eq_scatter]
  | deinterleave2 n => rw [unboundedResults, wiredResults, deinterleave2_eq_gather]
  | interleave3 x y z => rw [unboundedResults, wiredResults, interleave3_eq_scatter]
  | deinterleave3 n => rw [unboundedResults, wiredResults, deinterleave3_eq_gather]
  | interleave4 w x y z => rw [unboundedResults, wiredResults, interleave4_eq_scatter]
  | deinterleave4 n => rw [unboundedResults, wiredResults, deinterleave4_eq_gather]

theorem State.drive_unboundedResults (s : State) (i : Instr) :
    s.drive (unboundedResults i) = s.withResponse (wiredResponse s.width i) := by
  rw [State.drive, unboundedResults_eq_wiredResults, wiredResponse]

/-! ### The invariant -/

theorem State.inv_iff (s : State) : s.inv = true ↔ s.wf = true ∧ s.settled = true := Bool.and_eq_true_iff

/-- A state keeps its width and inputs when its result ports are driven, and any driven response fits. -/
theorem State.wf_drive {s : State} (h : s.wf = true) (rs : List Nat) : (s.drive rs).wf = true := by
  obtain ⟨hin, -⟩ := Bool.and_eq_true_iff.1 h
  exact Bool.and_eq_true_iff.2 ⟨hin, respond_fits s.width rs⟩

/-- The wiring's response to the instruction on the input ports is a settled one. -/
theorem State.settled_withResponse {s : State} {i : Instr} (h : decode s.input = .ok i) :
    (s.withResponse (wiredResponse s.width i)).settled = true := by
  simp [State.settled, h]

/-- Settles O16: the one thing a step does is to drive the wiring's response to the decoded command. -/
theorem stepKeepsTheInvariant : Obligations.StepKeepsTheInvariant := by
  intro s t hinv hstep
  obtain ⟨hwf, -⟩ := s.inv_iff.1 hinv
  obtain ⟨i, hdecode, rfl⟩ := step_next_cases hstep
  refine (State.inv_iff _).2 ⟨State.wf_drive hwf _, ?_⟩
  rw [State.drive_unboundedResults]
  exact State.settled_withResponse hdecode

/-- Settles O15: at reset no port carries a definite value, so nothing can fail to fit or be unsettled. -/
theorem resetMeetsTheInvariant : Obligations.ResetMeetsTheInvariant :=
  State.reset.inv_iff.2 ⟨by decide, by decide⟩

/-- Settles O9: `exec` drives the unbounded results, and `respond` puts each through `trunc_W` onto its port. -/
theorem resultsAreTruncatedOnce : Obligations.ResultsAreTruncatedOnce := by
  refine ⟨fun s i h => ?_, fun w v => ⟨rfl, rfl⟩, fun s n => ?_, fun s w x y z => ?_⟩
  · rw [step_of_decode h, exec_eq]
  · simp only [exec_eq, State.drive, unboundedResults, respond_one, respond_two, respond_three, respond_four, and_self]
  · simp only [exec_eq, State.drive, unboundedResults, respond_one, and_self]

end Sys2Proof.Machine

namespace Sys2Proof

/-! ### Commands whose used ports are definite -/

theorem Command.read_ok_of_ne_indefinite {c : Command} {p : OperandPort} (h : c.operand p ≠ .indefinite) :
    ∃ v, c.read p = .ok v := by
  cases hp : c.operand p with
  | definite v => exact ⟨v, Command.read_definite hp⟩
  | indefinite => exact absurd hp h

/-- A code of the table decodes once every port it uses is definite, whatever the other ports carry (R58, R61). -/
theorem decodeOp_ok_of_used_definite {op : OpCode} {c : Command} (hop : op.toNat < 10)
    (hused : ∀ p ∈ operandPorts op, c.operand p ≠ .indefinite) : ∃ i, decodeOp op c = .ok i := by
  have hread (p : OperandPort) (hp : p ∈ operandPorts op) : ∃ v, c.read p = .ok v :=
    Command.read_ok_of_ne_indefinite (hused p hp)
  unfold decodeOp
  split
  case h_5 =>
    obtain ⟨x, hx⟩ := hread .a (by decide)
    obtain ⟨y, hy⟩ := hread .b (by decide)
    exact ⟨.interleave2 x y, by rw [hx, hy]; rfl⟩
  case h_7 =>
    obtain ⟨x, hx⟩ := hread .a (by decide)
    obtain ⟨y, hy⟩ := hread .b (by decide)
    obtain ⟨z, hz⟩ := hread .c (by decide)
    exact ⟨.interleave3 x y z, by rw [hx, hy, hz]; rfl⟩
  case h_9 =>
    obtain ⟨w, hw⟩ := hread .a (by decide)
    obtain ⟨x, hx⟩ := hread .b (by decide)
    obtain ⟨y, hy⟩ := hread .c (by decide)
    obtain ⟨z, hz⟩ := hread .d (by decide)
    exact ⟨.interleave4 w x y z, by rw [hw, hx, hy, hz]; rfl⟩
  case h_11 =>
    -- The reserved arm: the codes it leaves are 10 and above.
    exfalso
    simp only [imp_false] at *
    bv_omega
  all_goals
    obtain ⟨n, hn⟩ := hread .a (by decide)
    exact ⟨_, by rw [hn]; rfl⟩

theorem decode_ok_of_used_definite {op : OpCode} {c : Command} (hc : c.op = .definite op) (hop : op.toNat < 10)
    (hused : ∀ p ∈ operandPorts op, c.operand p ≠ .indefinite) : ∃ i, decode c = .ok i := by
  rw [decode_of_op hc]
  exact decodeOp_ok_of_used_definite hop hused

/-! ### The pattern of an integer on a port -/

/-- A negative integer with a two's-complement pattern is presented `2^w` above itself (R25). -/
theorem PortWidth.pattern_bits_of_neg {w : Nat} {z : Int} (hz : -2 ^ w ≤ 2 * z) (hneg : z < 0) :
    (PortWidth.bits w).pattern z = some (2 ^ w + z).toNat := by
  have hmod : z % 2 ^ w = 2 ^ w + z := by
    rw [← Int.add_emod_left, Int.emod_eq_of_lt] <;> omega
  rw [PortWidth.pattern, hmod]

/-- A natural number a finite port can hold is presented as itself. -/
theorem PortWidth.pattern_bits_of_lt {w v : Nat} (h : v < 2 ^ w) : (PortWidth.bits w).pattern v = some v := by
  have hmod : (v : Int) % 2 ^ w = v := by exact_mod_cast Nat.mod_eq_of_lt h
  rw [PortWidth.pattern, hmod, Int.toNat_natCast]

/-- A port without bound has no pattern for a negative number (R25). -/
theorem PortWidth.pattern_inf_of_neg {z : Int} (h : z < 0) : PortWidth.inf.pattern z = none :=
  if_neg (Int.not_le.2 h)

theorem PortWidth.pattern_inf_natCast (v : Nat) : PortWidth.inf.pattern v = some v :=
  if_pos (c := (0 : Int) ≤ v) (e := none) (Int.natCast_nonneg v)

end Sys2Proof

namespace Sys2Proof.Machine

/-! ### What the response to a command depends on -/

/-- Driving the same results twice is driving them once: the response reads the width and no earlier output. -/
@[simp] theorem State.drive_drive (s : State) (rs : List Nat) : (s.drive rs).drive rs = s.drive rs := rfl

/-- Instances of one width drive the same response for the same results, each over its own input ports. -/
theorem State.drive_eq_of_width {s s' : State} (h : s.width = s'.width) (rs : List Nat) :
    s'.drive rs = { s' with output := (s.drive rs).output } := by
  rw [State.drive_output, h]
  rfl

/-- A presented command that decodes is answered by the wiring, and the ports keep the command. -/
theorem serve_eq_withResponse {s : State} {c : Command} {i : Instr} (h : decode c = .ok i) :
    serve s c = .next ((s.present c).withResponse (wiredResponse s.width i)) := by
  rw [serve_of_decode h, State.drive_unboundedResults, State.present_width]

/-- Settles O20, by induction along the commands and their instructions: every answer leaves the width as it was, so
the responses of the rest are those of the rest alone. -/
theorem runAnswersEveryCommand : Obligations.RunAnswersEveryCommand := by
  intro cs is s h
  induction h generalizing s with
  | nil => exact ⟨s, runCommands_nil s, rfl⟩
  | cons hdecode _ ih =>
    have hserve := serve_eq_withResponse (s := s) hdecode
    obtain ⟨u, hrun, hwidth⟩ := ih ((s.present _).withResponse (wiredResponse s.width _))
    exact ⟨u, runCommands_cons_next hserve hrun, hwidth⟩

/-- Settles O6: both sides drive the results of the decoded instruction. -/
theorem stepRunsTheDecodedInstruction : Obligations.StepRunsTheDecodedInstruction := by
  intro s i h
  rw [step_of_decode h, exec_eq]

/-- Settles O8: every instruction drives the result ports, and driving them writes no other field. -/
theorem instructionsChangeOnlyTheResultPorts : Obligations.InstructionsChangeOnlyTheResultPorts := by
  intro i s
  refine ⟨s.drive (unboundedResults i), respond s.width (unboundedResults i), exec_eq i s, s.drive_output _,
    s.drive_width _, ?_⟩
  simp only [State.drive_input, and_self]

/-- Settles O12: the other state decodes to the same instruction and drives the same results on the same width. -/
theorem responseDependsOnTheCommandAlone : Obligations.ResponseDependsOnTheCommandAlone := by
  intro s s' t hwidth hinput hstep
  obtain ⟨i, hdecode, rfl⟩ := step_next_cases hstep
  rw [hinput] at hdecode
  rw [step_of_decode hdecode, State.drive_eq_of_width hwidth]

/-- Settles O13: a step keeps the input ports, so the next one decodes the same command and drives the same results. -/
theorem stepIsIdempotent : Obligations.StepIsIdempotent := by
  intro s t hstep
  obtain ⟨i, hdecode, rfl⟩ := step_next_cases hstep
  have hagain := step_of_decode (s := s.drive (unboundedResults i)) hdecode
  rwa [State.drive_drive] at hagain

/-- Settles O58: a negative number is presented `2^W` above itself, and the values presented are definite, which is all
a code of the table needs to be answered. -/
theorem negativeInputIsReadAsItsBitPattern : Obligations.NegativeInputIsReadAsItsBitPattern := by
  refine ⟨fun w z hz hneg => ?_, fun w v => PortWidth.pattern_bits_of_lt, fun z => PortWidth.pattern_inf_of_neg,
    PortWidth.pattern_inf_natCast, fun s op a b c d hop ha hb hc hd => ?_⟩
  · have hpattern := PortWidth.pattern_bits_of_neg hz hneg
    exact ⟨_, hpattern, by omega, decide_eq_true (PortWidth.pattern_bits_lt hpattern)⟩
  · obtain ⟨va, hva⟩ := PortWidth.pattern_of_expressible ha
    obtain ⟨vb, hvb⟩ := PortWidth.pattern_of_expressible hb
    obtain ⟨vc, hvc⟩ := PortWidth.pattern_of_expressible hc
    obtain ⟨vd, hvd⟩ := PortWidth.pattern_of_expressible hd
    obtain ⟨i, hdecode⟩ := decode_ok_of_used_definite
      (c := ⟨.definite op, .definite va, .definite vb, .definite vc, .definite vd⟩) rfl hop
      fun p _ => by cases p <;> exact nofun
    exact ⟨va, vb, vc, vd, _, hva, hvb, hvc, hvd, serve_of_decode hdecode⟩

end Sys2Proof.Machine

namespace Sys2Proof

/-! ### The orders of lanes, chunks and operands (R45, R46) -/

theorem shiftRight_mod_eq_codeChunk (n i : Nat) : (n >>> (32 * i)) % 2 ^ 32 = codeChunk n i :=
  (Nat.and_two_pow_sub_one_eq_mod ..).symm

theorem shiftRight_mod_eq_lane (x i : Nat) : (x >>> (16 * i)) % 2 ^ 16 = lane x i :=
  (Nat.and_two_pow_sub_one_eq_mod ..).symm

/-- The code holds its chunks side by side, each made of the lanes of the same index. -/
theorem codeChunk_interleave2 (x y i : Nat) : codeChunk (interleave2 x y) i = pairChunk x y i := by
  refine Nat.eq_of_testBit_eq fun k => ?_
  have hpar : (32 * i + k) % 2 = k % 2 := by omega
  have hhalf : (32 * i + k) / 2 = 16 * i + k / 2 := by omega
  rw [testBit_codeChunk, testBit_interleave2, testBit_pairChunk, hpar, hhalf]

theorem lane_deinterleave2_fst (n i : Nat) : lane (deinterleave2 n).1 i = unspread2 (codeChunk n i) := by
  refine Nat.eq_of_testBit_eq fun k => ?_
  have heven : 2 * (16 * i + k) = 32 * i + 2 * k := by omega
  rw [testBit_lane, testBit_deinterleave2_fst, testBit_unspread2_codeChunk, heven]

theorem lane_deinterleave2_snd (n i : Nat) : lane (deinterleave2 n).2 i = unspread2 (codeChunk n i >>> 1) := by
  refine Nat.eq_of_testBit_eq fun k => ?_
  have hodd : 2 * (16 * i + k) + 1 = 32 * i + (2 * k + 1) := by omega
  rw [testBit_lane, testBit_deinterleave2_snd, testBit_unspread2_codeChunk_shiftRight, hodd]

/-- Settles O42: both directions compare a chunk of the code with the lanes of the same index. -/
theorem chunksAreLeastSignificantFirst : Obligations.ChunksAreLeastSignificantFirst := by
  refine ⟨fun x y i => ?_, fun n i => ?_⟩
  · rw [shiftRight_mod_eq_codeChunk, codeChunk_interleave2, pairChunk, lane, lane]
  · rw [shiftRight_mod_eq_lane, shiftRight_mod_eq_lane, shiftRight_mod_eq_codeChunk]
    exact ⟨lane_deinterleave2_fst n i, lane_deinterleave2_snd n i⟩

/-- Code bit `3j+p` is bit `j` of the operand at place `p`, for `j` below 10 (R122). -/
theorem testBit_interleave3 (x y z k : Nat) :
    (interleave3 x y z).testBit k =
      (decide (k / 3 < 10) && if k % 3 = 0 then x.testBit (k / 3) else if k % 3 = 1 then y.testBit (k / 3)
        else z.testBit (k / 3)) := by
  simp only [interleave3, spread3_eq_scatter, scatter_shiftLeft, Nat.testBit_or,
    testBit_scatter (by decide : 0 < 3), testBit_scatter (by decide : 0 + 1 < 3),
    testBit_scatter (by decide : 0 + 2 < 3)]
  have hk : k % 3 = 0 ∨ k % 3 = 1 ∨ k % 3 = 2 := by omega
  rcases hk with hk | hk | hk <;> simp [hk]

/-- Settles O43: at `stride*k + j` each operator's code holds bit `k` of the operand at place `j`. -/
theorem firstOperandOwnsTheLowestPosition : Obligations.FirstOperandOwnsTheLowestPosition := by
  refine ⟨fun x y k => ?_, fun x y z k hk => ?_, fun w x y z k => ?_⟩ <;> simp only [bit_eq_bit_iff]
  · simp [testBit_interleave2, Nat.mul_add_div]
  · simp [testBit_interleave3, Nat.mul_add_div, hk]
  · simp [testBit_interleave4, Nat.mul_add_div]

end Sys2Proof

namespace Sys2Proof

/-! ### What decoding reads of a command (R56, R58, R61, R62) -/

/-- The codes 10 to 15 are reserved, whatever the operand ports carry (R62). -/
theorem decodeOp_reserved {op : OpCode} (hop : 10 ≤ op.toNat) (c : Command) :
    decodeOp op c = .error (.reservedOp op) := by
  unfold decodeOp
  split
  case h_11 => rfl
  all_goals exact absurd hop (by decide)

theorem decode_reserved {c : Command} {op : OpCode} (hc : c.op = .definite op) (hop : 10 ≤ op.toNat) :
    decode c = .error (.reservedOp op) := by
  rw [decode_of_op hc, decodeOp_reserved hop]

/-- A code reads the ports of its row of the table of R58 and no other port. -/
theorem decodeOp_congr {op : OpCode} {c c' : Command} (h : ∀ p ∈ operandPorts op, c.operand p = c'.operand p) :
    decodeOp op c = decodeOp op c' := by
  have hread (p : OperandPort) (hp : p ∈ operandPorts op) : c.read p = c'.read p := by
    rw [Command.read, Command.read, h p hp]
  unfold decodeOp
  split
  case h_5 => rw [hread .a (by decide), hread .b (by decide)]
  case h_7 => rw [hread .a (by decide), hread .b (by decide), hread .c (by decide)]
  case h_9 => rw [hread .a (by decide), hread .b (by decide), hread .c (by decide), hread .d (by decide)]
  case h_11 => rfl
  all_goals rw [hread .a (by decide)]

theorem decode_congr {c c' : Command} {op : OpCode} (hc : c.op = .definite op) (hc' : c'.op = .definite op)
    (h : ∀ p ∈ operandPorts op, c.operand p = c'.operand p) : decode c = decode c' := by
  rw [decode_of_op hc, decode_of_op hc', decodeOp_congr h]

/-- No value on a port the code does not use changes the verdict (R61). -/
theorem decode_setOperand_of_unused {c : Command} {op : OpCode} {p : OperandPort} (hc : c.op = .definite op)
    (hp : p ∉ operandPorts op) (v : Port Nat) : decode (c.setOperand p v) = decode c :=
  decode_congr (by rw [Machine.Command.setOperand_op, hc]) hc fun _ hq =>
    Machine.Command.operand_setOperand_ne c v (ne_of_mem_of_not_mem hq hp)

theorem decode_encode (i : Instr) : decode (encode i) = .ok i := by cases i <;> rfl

/-- A sequence of reads that answers found a definite value on its first port. -/
theorem Command.read_bind_ok {α : Type} {c : Command} {p : OperandPort} {f : Nat → Except DecodeRefusal α} {r : α}
    (h : (c.read p >>= f) = .ok r) : ∃ v, c.operand p = .definite v ∧ f v = .ok r := by
  cases hp : c.operand p with
  | definite v =>
    rw [Command.read_definite hp] at h
    exact ⟨v, rfl, h⟩
  | indefinite =>
    rw [Command.read_indefinite hp] at h
    cases h

/-- A verdict `i` tells what its code and its used ports carry: no two codes share an operation, and each port's value
is the operand at its place (R56, R58). -/
theorem decodeOp_ok_inv {op : OpCode} {c : Command} {i : Instr} (h : decodeOp op c = .ok i) :
    op = i.opCode ∧ ∀ p ∈ operandPorts i.opCode, c.operand p = (encode i).operand p := by
  unfold decodeOp at h
  split at h
  case h_5 =>
    obtain ⟨x, hx, h⟩ := Command.read_bind_ok h
    obtain ⟨y, hy, ⟨⟩⟩ := Command.read_bind_ok h
    exact ⟨rfl, by simpa [Instr.opCode, operandPorts] using ⟨hx, hy⟩⟩
  case h_7 =>
    obtain ⟨x, hx, h⟩ := Command.read_bind_ok h
    obtain ⟨y, hy, h⟩ := Command.read_bind_ok h
    obtain ⟨z, hz, ⟨⟩⟩ := Command.read_bind_ok h
    exact ⟨rfl, by simpa [Instr.opCode, operandPorts] using ⟨hx, hy, hz⟩⟩
  case h_9 =>
    obtain ⟨w, hw, h⟩ := Command.read_bind_ok h
    obtain ⟨x, hx, h⟩ := Command.read_bind_ok h
    obtain ⟨y, hy, h⟩ := Command.read_bind_ok h
    obtain ⟨z, hz, ⟨⟩⟩ := Command.read_bind_ok h
    exact ⟨rfl, by simpa [Instr.opCode, operandPorts] using ⟨hw, hx, hy, hz⟩⟩
  case h_11 => cases h
  all_goals
    obtain ⟨n, hn, ⟨⟩⟩ := Command.read_bind_ok h
    exact ⟨rfl, List.forall_mem_singleton.2 hn⟩

/-- Only a command with a definite code decodes, and its code is the instruction's. -/
theorem decode_ok_inv {c : Command} {i : Instr} (h : decode c = .ok i) :
    c.op = .definite i.opCode ∧ ∀ p ∈ operandPorts i.opCode, c.operand p = (encode i).operand p := by
  cases hc : c.op with
  | definite op =>
    rw [decode_of_op hc] at h
    obtain ⟨rfl, hports⟩ := decodeOp_ok_inv h
    exact ⟨rfl, hports⟩
  | indefinite =>
    rw [decode_indefinite_op hc] at h
    cases h

/-- Settles O2: a command that agrees with `encode i` on the code and on the ports it uses gets the verdict of
`encode i`, which is `i`; and a verdict determines all of those. -/
theorem decodeAndEncodeAgree : Obligations.DecodeAndEncodeAgree :=
  ⟨decode_encode, fun _ i => ⟨decode_ok_inv, fun ⟨hop, hports⟩ => (decode_congr hop rfl hports).trans (decode_encode i)⟩⟩

/-- Settles O1: a code of the table, its used ports definite, decodes by computation, and the codes from 10 are
reserved; the pairing by bit 0 is a comparison of the ten codes. -/
theorem opCodesSelectTheirOperations : Obligations.OpCodesSelectTheirOperations := by
  refine ⟨fun n p q r => ⟨rfl, rfl, rfl, rfl, rfl, rfl, rfl⟩, fun x y q r => rfl, fun x y z r => rfl,
    fun w x y z => rfl, fun op a b c d hop => decode_reserved rfl hop, fun w x y z n => ?_⟩
  simp only [Instr.opCode]
  decide

theorem decodeTableWord_eq_some_iff {nbits w : Nat} {i : Instr} :
    decodeTableWord nbits w = some i ↔ decode (tableCommand nbits w) = .ok i := by
  unfold decodeTableWord
  split <;> simp_all

end Sys2Proof

namespace Sys2Proof.Machine

/-! ### Refusals, and the ports a command does not use -/

/-- The one way a step is refused. -/
theorem step_refused_cases {s : State} {r : Refusal} (h : step s = .refused r) :
    ∃ e, decode s.input = .error e ∧ r = Refusal.ofDecode e := by
  cases hd : decode s.input with
  | ok i =>
    rw [step_of_decode hd] at h
    cases h
  | error e =>
    rw [step_of_decode_error hd] at h
    exact ⟨e, rfl, (Host.Outcome.refused.inj h).symm⟩

/-- Settles O3: a step on the changed command gets the same verdict and drives the same results; and the response to a
tuple of one, two or three results is 0 on the ports beyond it. -/
theorem unusedPortsAreIgnored : Obligations.UnusedPortsAreIgnored := by
  refine ⟨fun s op p v hop hp => ?_, fun i s t r hexec hout => ?_⟩
  · have hsame := decode_setOperand_of_unused hop hp v
    refine ⟨fun t hstep => ?_, fun r hstep => ?_⟩
    · obtain ⟨i, hdecode, rfl⟩ := step_next_cases hstep
      exact step_of_decode (hsame.trans hdecode)
    · obtain ⟨e, hdecode, rfl⟩ := step_refused_cases hstep
      exact step_of_decode_error (hsame.trans hdecode)
  · obtain rfl := Host.Outcome.next.inj ((exec_eq i s).symm.trans hexec)
    obtain rfl := Port.definite.inj hout
    cases i <;> simp [Instr.opCode, unboundedResults]

/-- Settles O4: a reserved code decodes to the verdict reserved, and the step refuses it. -/
theorem reservedCodesAreRefused : Obligations.ReservedCodesAreRefused :=
  fun _ _ hc hop => step_of_decode_error (decode_reserved hc hop)

/-- Settles O21, by induction along the commands before the reserved one: each of them is answered, so the run comes
to the reserved code, where it is refused whatever follows. -/
theorem runIsRefusedAtAReservedCode : Obligations.RunIsRefusedAtAReservedCode := by
  intro cs ds bad op s hcs hbad hop
  induction cs generalizing s with
  | nil => exact runCommands_cons_refused (serve_of_decode_error (decode_reserved hbad hop))
  | cons c cs ih =>
    obtain ⟨⟨i, hdecode⟩, hcs⟩ := List.forall_mem_cons.1 hcs
    exact runCommands_cons_then_refused (serve_of_decode hdecode) (ih _ hcs)

/-- Settles O7: a placed word is the command on the input ports, and a word below 10 is its own code. -/
theorem tableWordRunsAsTheNextStep : Obligations.TableWordRunsAsTheNextStep := by
  refine ⟨fun s nbits w i h => ?_, fun w hw => ?_⟩
  · exact stepRunsTheDecodedInstruction _ i (decodeTableWord_eq_some_iff.1 h)
  · have hword : w % 2 ^ 8 = w := Nat.mod_eq_of_lt (by omega)
    have hop : (tableCommand 8 w).op = .definite (BitVec.ofNat 4 w) := by rw [tableCommand, hword]
    have hcode : (BitVec.ofNat 4 w).toNat < 10 := by rw [BitVec.toNat_ofNat]; omega
    obtain ⟨i, hdecode⟩ := decode_ok_of_used_definite hop hcode fun p _ => by cases p <;> exact nofun
    obtain ⟨hi, -⟩ := decode_ok_inv hdecode
    exact ⟨i, decodeTableWord_eq_some_iff.2 hdecode, Port.definite.inj (hi.symm.trans hop)⟩

end Sys2Proof.Machine

namespace Sys2Proof

/-! ### Scattered and gathered bits: sums, bounds, windows, and one after the other -/

theorem scatter_eq_sum (stride offset v len : Nat) :
    scatter stride offset v len = ∑ i ∈ Finset.range len, bit v i * 2 ^ (stride * i + offset) := by
  induction len with
  | zero => rfl
  | succ len ih => rw [scatter, Finset.sum_range_succ, ih]

theorem gather_eq_sum (stride offset v len : Nat) :
    gather stride offset v len = ∑ i ∈ Finset.range len, bit v (stride * i + offset) * 2 ^ i := by
  induction len with
  | zero => rfl
  | succ len ih => rw [gather, Finset.sum_range_succ, ih]

/-- The last scattered bit is the highest: nothing stands above it. -/
theorem scatter_succ_lt {stride offset : Nat} (ho : offset < stride) (v len : Nat) :
    scatter stride offset v (len + 1) < 2 ^ (stride * len + offset + 1) := by
  have hlow : scatter stride offset v len < 2 ^ (stride * len + offset) :=
    Nat.lt_of_lt_of_le (scatter_lt ho v len) (Nat.pow_le_pow_right (by decide) (Nat.le_add_right ..))
  rw [scatter, Nat.pow_succ]
  rcases bit_eq_zero_or_one v len with h | h <;> rw [h] <;> omega

/-- Only the operand bits below `stride*len` are gathered. -/
theorem gather_mod {stride offset : Nat} (ho : offset < stride) (v len : Nat) :
    gather stride offset (v % 2 ^ (stride * len)) len = gather stride offset v len := by
  refine Nat.eq_of_testBit_eq fun k => ?_
  rw [testBit_gather, testBit_gather, Nat.testBit_mod_two_pow]
  by_cases hk : k < len
  · have hle : stride * (k + 1) ≤ stride * len := Nat.mul_le_mul_left stride hk
    have hlt : stride * k + offset < stride * len := by rw [Nat.mul_succ] at hle; omega
    simp [hlt]
  · simp [hk]

theorem gather_or (stride offset u v len : Nat) :
    gather stride offset (u ||| v) len = gather stride offset u len ||| gather stride offset v len := by
  refine Nat.eq_of_testBit_eq fun k => ?_
  simp only [testBit_gather, Nat.testBit_or, Bool.and_or_distrib_left]

/-- Gathering from where an operand was scattered returns the bits that were scattered. -/
theorem gather_scatter {stride offset : Nat} (ho : offset < stride) (v len : Nat) :
    gather stride offset (scatter stride offset v len) len = v % 2 ^ len := by
  refine Nat.eq_of_testBit_eq fun k => ?_
  have hdiv : (stride * k + offset) / stride = k := by
    rw [Nat.mul_add_div (by omega), Nat.div_eq_of_lt ho, Nat.add_zero]
  rw [testBit_gather, testBit_scatter ho, Nat.testBit_mod_two_pow, hdiv, Nat.mul_add_mod, Nat.mod_eq_of_lt ho]
  by_cases hk : k < len <;> simp [hk]

/-- Nothing is gathered from another offset than the operand was scattered to. -/
theorem gather_scatter_of_ne {stride o p : Nat} (h : o ≠ p) (ho : o < stride) (hp : p < stride) (v m len : Nat) :
    gather stride o (scatter stride p v m) len = 0 := by
  refine Nat.eq_of_testBit_eq fun k => ?_
  rw [testBit_gather, testBit_scatter hp, Nat.mul_add_mod, Nat.mod_eq_of_lt ho]
  simp [h]

/-- The mask of the positions an operand is scattered to is the scattered value of `len` ones. -/
theorem scatter_gather {stride offset : Nat} (ho : offset < stride) (v len : Nat) :
    scatter stride offset (gather stride offset v len) len = v &&& scatter stride offset (2 ^ len - 1) len := by
  refine Nat.eq_of_testBit_eq fun k => ?_
  rw [testBit_scatter ho, testBit_gather, Nat.testBit_and, testBit_scatter ho, Nat.testBit_two_pow_sub_one]
  have hdm := Nat.div_add_mod k stride
  by_cases hk : k % stride = offset
  · rw [hk] at hdm
    by_cases hlen : k / stride < len <;> simp [hk, hlen, hdm]
  · simp [hk]

theorem scatter_inj {stride offset m n len : Nat} (ho : offset < stride) (hm : m < 2 ^ len) (hn : n < 2 ^ len)
    (h : scatter stride offset m len = scatter stride offset n len) : m = n := by
  have hback := congrArg (gather stride offset · len) h
  simp only [gather_scatter ho] at hback
  rwa [Nat.mod_eq_of_lt hm, Nat.mod_eq_of_lt hn] at hback

theorem bit_scatter {stride offset i len : Nat} (ho : offset < stride) (hi : i < len) (v : Nat) :
    bit (scatter stride offset v len) (stride * i + offset) = bit v i := by
  rw [bit_eq_bit_iff, testBit_scatter ho, Nat.mul_add_mod, Nat.mul_add_div (by omega), Nat.div_eq_of_lt ho,
    Nat.mod_eq_of_lt ho]
  simp [hi]

theorem bit_scatter_eq_zero {stride offset k len : Nat} (ho : offset < stride)
    (hk : k % stride ≠ offset ∨ len ≤ k / stride) (v : Nat) : bit (scatter stride offset v len) k = 0 := by
  rw [bit_eq_zero_iff, testBit_scatter ho]
  rcases hk with hk | hk
  · simp [hk]
  · simp [Nat.not_lt.2 hk]

/-- Values without a common bit have the same `|` and `^`. -/
theorem or_eq_xor_of_and_eq_zero {u v : Nat} (h : u &&& v = 0) : u ||| v = u ^^^ v := by
  refine Nat.eq_of_testBit_eq fun i => ?_
  have hi : (u.testBit i && v.testBit i) = false := by rw [← Nat.testBit_and, h, Nat.zero_testBit]
  exact (Nat.testBit_or ..).trans (testBit_combine_of_exclusive .xor hi).symm

/-! ### Bounds and windows of the primitives and of the triple operators -/

theorem spread2_lt (n : Nat) : spread2 n < 2 ^ 31 := spread2_eq_scatter n ▸ scatter_succ_lt (by decide) n 15

theorem unspread2_lt (n : Nat) : unspread2 n < 2 ^ 16 := unspread2_eq_gather n ▸ gather_lt 2 0 n 16

theorem spread3_lt (n : Nat) : spread3 n < 2 ^ 28 := spread3_eq_scatter n ▸ scatter_succ_lt (by decide) n 9

theorem unspread3_lt (n : Nat) : unspread3 n < 2 ^ 10 := unspread3_eq_gather n ▸ gather_lt 3 0 n 10

theorem interleave3_lt (x y z : Nat) : interleave3 x y z < 2 ^ 30 := by
  refine Nat.lt_pow_two_of_testBit _ fun k hk => ?_
  rw [testBit_interleave3]
  simp [show ¬ k / 3 < 10 by omega]

theorem deinterleave3_lt (n : Nat) :
    (deinterleave3 n).1 < 2 ^ 10 ∧ (deinterleave3 n).2.1 < 2 ^ 10 ∧ (deinterleave3 n).2.2 < 2 ^ 10 :=
  ⟨unspread3_lt _, unspread3_lt _, unspread3_lt _⟩

/-- Operands that agree under the entry mask agree. -/
theorem Primitive.run_congr {p : Primitive} {m n : Nat} (h : m &&& p.entry = n &&& p.entry) : p.run m = p.run n := by
  rw [Primitive.run, Primitive.run, h]

theorem Primitive.run_and_entry (p : Primitive) (n : Nat) : p.run (n &&& p.entry) = p.run n :=
  Primitive.run_congr (by rw [Nat.and_assoc, Nat.and_self])

theorem Primitive.round_and_mask (p : Primitive) (t : Nat) (r : Round) : p.round t r &&& r.mask = p.round t r := by
  rw [Primitive.round, Nat.and_assoc, Nat.and_self]

theorem spread2_congr {m n : Nat} (h : m % 2 ^ 16 = n % 2 ^ 16) : spread2 m = spread2 n := by
  rw [← Nat.and_two_pow_sub_one_eq_mod, ← Nat.and_two_pow_sub_one_eq_mod] at h
  exact Primitive.run_congr h

theorem spread3_congr {m n : Nat} (h : m % 2 ^ 10 = n % 2 ^ 10) : spread3 m = spread3 n := by
  rw [← Nat.and_two_pow_sub_one_eq_mod, ← Nat.and_two_pow_sub_one_eq_mod] at h
  exact Primitive.run_congr h

theorem unspread2_congr {m n : Nat} (h : m &&& 0x55555555 = n &&& 0x55555555) : unspread2 m = unspread2 n :=
  Primitive.run_congr h

theorem unspread3_congr {m n : Nat} (h : m &&& 0x09249249 = n &&& 0x09249249) : unspread3 m = unspread3 n :=
  Primitive.run_congr h

theorem deinterleave3_mod (n : Nat) : deinterleave3 (n % 2 ^ 30) = deinterleave3 n := by
  rw [deinterleave3_eq_gather, deinterleave3_eq_gather, gather_mod (stride := 3) (len := 10) (by decide),
    gather_mod (stride := 3) (len := 10) (by decide), gather_mod (stride := 3) (len := 10) (by decide)]

/-! ### The laws of the primitives -/

/-- The masks of R95 that a spread value obeys, as spread values of ones. -/
theorem spread2_mask : (0x55555555 : Nat) = scatter 2 0 (2 ^ 16 - 1) 16 := by decide
theorem spread3_mask : (0x09249249 : Nat) = scatter 3 0 (2 ^ 10 - 1) 10 := by decide

theorem unspread2_spread2 (n : Nat) : unspread2 (spread2 n) = n % 2 ^ 16 := by
  rw [unspread2_eq_gather, spread2_eq_scatter, gather_scatter (by decide)]

theorem spread2_unspread2 (n : Nat) : spread2 (unspread2 n) = n &&& 0x55555555 := by
  rw [unspread2_eq_gather, spread2_eq_scatter, scatter_gather (by decide), spread2_mask]

theorem unspread3_spread3 (n : Nat) : unspread3 (spread3 n) = n % 2 ^ 10 := by
  rw [unspread3_eq_gather, spread3_eq_scatter, gather_scatter (by decide)]

theorem spread3_unspread3 (n : Nat) : spread3 (unspread3 n) = n &&& 0x09249249 := by
  rw [unspread3_eq_gather, spread3_eq_scatter, scatter_gather (by decide), spread3_mask]

/-- Settles O30: gathering takes each operand back from the offset it was scattered to, and nothing from the other. -/
theorem twoWayPrimitivesAreInverse : Obligations.TwoWayPrimitivesAreInverse := by
  have hmask (n : Nat) : n &&& 0xFFFF = n % 2 ^ 16 := Nat.and_two_pow_sub_one_eq_mod n 16
  refine ⟨fun n => ?_, fun n hn => ?_, spread2_unspread2, fun p q => ?_⟩
  · rw [unspread2_spread2, hmask]
  · rw [unspread2_spread2, Nat.mod_eq_of_lt hn]
  · simp [hmask, unspread2_eq_gather, spread2_eq_scatter, scatter_shiftLeft, gather_shiftRight, gather_or,
      gather_scatter, gather_scatter_of_ne]

/-- Settles O31: as for the 2-way primitives, with the three offsets 0, 1 and 2. -/
theorem threeWayPrimitivesAreInverse : Obligations.ThreeWayPrimitivesAreInverse := by
  have hmask (n : Nat) : n &&& 0x3FF = n % 2 ^ 10 := Nat.and_two_pow_sub_one_eq_mod n 10
  refine ⟨fun n => ?_, fun n hn => ?_, spread3_unspread3, fun p q s => ?_⟩
  · rw [unspread3_spread3, hmask]
  · exact (unspread3_spread3 n).trans (Nat.mod_eq_of_lt hn)
  · have hlt := interleave3_lt p q s
    simp only [interleave3, spread3_eq_scatter, scatter_shiftLeft] at hlt ⊢
    refine ⟨scatter_and_scatter 0 1 (by decide) .., scatter_and_scatter 0 2 (by decide) ..,
      scatter_and_scatter 1 2 (by decide) .., hlt, ?_⟩
    simp [hmask, unspread3_eq_gather, gather_shiftRight, gather_or, gather_scatter, gather_scatter_of_ne]

/-- Settles O32: the two values stand at different offsets of the stride, so they share no bit. -/
theorem spreadValuesMergeWithoutInterference : Obligations.SpreadValuesMergeWithoutInterference := by
  intro p q
  have hdisjoint : spread2 p &&& (spread2 q <<< 1) = 0 := by
    rw [spread2_eq_scatter, spread2_eq_scatter, scatter_shiftLeft, scatter_and_scatter _ _ (by decide)]
  have hp := spread2_lt p
  have hq := spread2_lt q
  refine ⟨hdisjoint, (add_eq_or_of_and_eq_zero hdisjoint).symm, or_eq_xor_of_and_eq_zero hdisjoint,
    Nat.or_lt_two_pow (by omega) (by rw [Nat.shiftLeft_eq]; omega)⟩

/-- Settles O26: the closed form is `scatter` at stride 2; the mask of the last round and the entry mask give the last
facts. -/
theorem spread2PutsBitIAtBit2I : Obligations.Spread2PutsBitIAtBit2I := by
  refine ⟨fun n => ?_, fun n i hi => ?_, fun n i hi => ?_, fun n => ⟨?_, spread2_lt n, ?_⟩, fun m n hm hn h => ?_⟩
  · exact (spread2_eq_scatter n).trans (scatter_eq_sum 2 0 n 16)
  · rw [spread2_eq_scatter]
    exact bit_scatter (by decide) hi n
  · rw [spread2_eq_scatter]
    exact bit_scatter_eq_zero (by decide) (by omega) n
  · exact spread2Rounds.round_and_mask _ ⟨1, 0x55555555⟩
  · exact (spread2Rounds.run_and_entry n).symm
  · rw [spread2_eq_scatter, spread2_eq_scatter] at h
    exact scatter_inj (by decide) (by omega) (by omega) h

/-- Settles O27: the closed form is `gather` at stride 2, whose sum names the bits that matter. -/
theorem unspread2CollectsTheEvenBits : Obligations.Unspread2CollectsTheEvenBits := by
  have hsum (n : Nat) : unspread2 n = ∑ i ∈ Finset.range 16, bit n (2 * i) * 2 ^ i :=
    (unspread2_eq_gather n).trans (gather_eq_sum 2 0 n 16)
  refine ⟨hsum, fun m n h => ?_, fun n => ⟨unspread2_lt n, (unspread2Rounds.run_and_entry n).symm⟩⟩
  rw [hsum, hsum]
  exact Finset.sum_congr rfl fun i hi => by rw [h i (Finset.mem_range.1 hi)]

/-- Settles O28: the closed forms are `scatter` and `gather` at stride 3. -/
theorem spread3AndUnspread3MoveEveryThirdBit : Obligations.Spread3AndUnspread3MoveEveryThirdBit := by
  refine ⟨fun n => ?_, fun n i hi => ?_, fun n i hi => ?_, fun n => ⟨?_, spread3_lt n, ?_⟩, fun m n hm hn h => ?_,
    fun n => ?_, fun n => ⟨unspread3_lt n, (unspread3Rounds.run_and_entry n).symm⟩⟩
  · exact (spread3_eq_scatter n).trans (scatter_eq_sum 3 0 n 10)
  · rw [spread3_eq_scatter]
    exact bit_scatter (by decide) hi n
  · rw [spread3_eq_scatter]
    exact bit_scatter_eq_zero (by decide) (by omega) n
  · exact spread3Rounds.round_and_mask _ ⟨2, 0x09249249⟩
  · exact (spread3Rounds.run_and_entry n).symm
  · rw [spread3_eq_scatter, spread3_eq_scatter] at h
    exact scatter_inj (by decide) (by omega) (by omega) h
  · exact (unspread3_eq_gather n).trans (gather_eq_sum 3 0 n 10)

end Sys2Proof

namespace Sys2Proof

/-! ### Where the operand's bits stand after some rounds (R78, R82, R86, R90) -/

/-- Where the `j`-th of the moved bits stands when they are in groups of `g` at a pitch of `stride*g`. -/
def groupPosition (stride g j : Nat) : Nat := j / g * (stride * g) + j % g

/-- Which of the moved bits stands at position `i` of such groups. -/
def groupSource (stride g i : Nat) : Nat := i / (stride * g) * g + i % (stride * g)

/-- A bit stands at `i` exactly when `i` lies in a group, and it is the bit of that place in the group. -/
theorem groupPosition_eq_iff {stride g : Nat} (hs : 0 < stride) (hg : 0 < g) (i j : Nat) :
    groupPosition stride g j = i ↔ i % (stride * g) < g ∧ groupSource stride g i = j := by
  have hpos : 0 < stride * g := Nat.mul_pos hs hg
  have hj := Nat.mod_lt j hg
  have hpitch : j % g < stride * g := Nat.lt_of_lt_of_le hj (Nat.le_mul_of_pos_left g hs)
  constructor
  · rintro rfl
    have hmod : groupPosition stride g j % (stride * g) = j % g := by
      rw [groupPosition, Nat.mul_comm, Nat.mul_add_mod, Nat.mod_eq_of_lt hpitch]
    have hdiv : groupPosition stride g j / (stride * g) = j / g := by
      rw [groupPosition, Nat.mul_comm, Nat.mul_add_div hpos, Nat.div_eq_of_lt hpitch, Nat.add_zero]
    rw [groupSource, hmod, hdiv]
    exact ⟨hj, Nat.div_add_mod' j g⟩
  · rintro ⟨hin, rfl⟩
    have hmod : groupSource stride g i % g = i % (stride * g) := by
      rw [groupSource, Nat.mul_comm, Nat.mul_add_mod, Nat.mod_eq_of_lt hin]
    have hdiv : groupSource stride g i / g = i / (stride * g) := by
      rw [groupSource, Nat.mul_comm, Nat.mul_add_div hg, Nat.div_eq_of_lt hin, Nat.add_zero]
    rw [groupPosition, hmod, hdiv, Nat.div_add_mod']

theorem bit_eq_ite {u v i j : Nat} {c : Prop} [Decidable c] (h : u.testBit i = (decide c && v.testBit j)) :
    bit u i = if c then bit v j else 0 := by
  rw [bit_eq_toNat_testBit, bit_eq_toNat_testBit, h]
  by_cases hc : c <;> simp [hc]

/-- Operand bit `pick*j` goes to group position `j` and every other operand bit is dropped: said of the basis values,
it holds of every operand. The spreaders pick every bit, the unspreaders every second or third. -/
theorem Primitive.bit_after_of_groups {p : Primitive} {k len pick stride g : Nat} (hpick : 0 < pick)
    (hs : 0 < stride) (hg : 0 < g) (hentry : p.entry < 2 ^ (pick * len))
    (hbasis : ∀ j < pick * len,
      p.after k (2 ^ j) = if j % pick = 0 then 2 ^ groupPosition stride g (j / pick) else 0) (n i : Nat) :
    bit (p.after k n) i =
      if i % (stride * g) < g ∧ groupSource stride g i < len then bit n (pick * groupSource stride g i) else 0 := by
  refine bit_eq_ite ((Primitive.testBit_after_of_basis (wired := fun i => decide (i % (stride * g) < g))
    (source := fun i => pick * groupSource stride g i) hentry (fun j hj i => ?_) n i).trans ?_)
  · have hdm := Nat.div_add_mod j pick
    rw [hbasis j hj, ← Bool.decide_and]
    split
    · next hm =>
      rw [Nat.testBit_two_pow]
      refine decide_eq_decide.2 ((groupPosition_eq_iff hs hg i _).trans (and_congr_right fun _ => ?_))
      rw [← Nat.mul_right_inj (Nat.ne_of_gt hpick), show pick * (j / pick) = j by omega]
    · next hm =>
      have hne : pick * groupSource stride g i ≠ j := fun h => hm (h ▸ Nat.mul_mod_right ..)
      simp [hne]
  · simp only [Nat.mul_lt_mul_left hpick, Bool.decide_and]

/-- Inside a group the source is one of the first `m*g` bits exactly when the position is below `m` pitches. -/
theorem groupSource_lt_iff {stride g i : Nat} (hs : 0 < stride) (hin : i % (stride * g) < g) (m : Nat) :
    groupSource stride g i < m * g ↔ i < m * (stride * g) := by
  have hg : 0 < g := by omega
  rw [← Nat.div_lt_iff_lt_mul hg, ← Nat.div_lt_iff_lt_mul (Nat.mul_pos hs hg), groupSource, Nat.mul_comm _ g,
    Nat.mul_add_div hg, Nat.div_eq_of_lt hin, Nat.add_zero]

theorem spread2_after_two_pow : ∀ k ≤ 4, ∀ j < 1 * 16,
    spread2Rounds.after k (2 ^ j) = if j % 1 = 0 then 2 ^ groupPosition 2 (2 ^ (4 - k)) (j / 1) else 0 := by decide

theorem unspread2_after_two_pow : ∀ k ≤ 4, ∀ j < 2 * 16,
    unspread2Rounds.after k (2 ^ j) = if j % 2 = 0 then 2 ^ groupPosition 2 (2 ^ k) (j / 2) else 0 := by decide

theorem spread3_after_two_pow : ∀ k ≤ 4, ∀ j < 1 * 10,
    spread3Rounds.after k (2 ^ j) = if j % 1 = 0 then 2 ^ groupPosition 3 (2 ^ (4 - k)) (j / 1) else 0 := by decide

theorem unspread3_after_two_pow : ∀ k ≤ 4, ∀ j < 3 * 10,
    unspread3Rounds.after k (2 ^ j) = if j % 3 = 0 then 2 ^ groupPosition 3 (2 ^ k) (j / 3) else 0 := by decide

/-- Two 2-way groups of 16, of 8, and so on fill 32 positions. -/
theorem lt_groupSource_two_iff {e i : Nat} (he : e ≤ 4) :
    i % (2 * 2 ^ e) < 2 ^ e ∧ groupSource 2 (2 ^ e) i < 16 ↔ i < 32 ∧ i % (2 * 2 ^ e) < 2 ^ e := by
  have h16 : 2 ^ (4 - e) * 2 ^ e = 16 := by rw [← Nat.pow_add, Nat.sub_add_cancel he]
  have h32 : 2 ^ (4 - e) * (2 * 2 ^ e) = 32 := by rw [Nat.mul_left_comm, h16]
  rw [and_comm]
  refine and_congr_left fun hin => ?_
  rw [← h16, ← h32]
  exact groupSource_lt_iff (by decide) hin _

/-- Settles O29: on each operand bit alone the value after `k` rounds is a power of two at the place of its group, which
a finite check of the rounds shows; additivity carries it to every operand. -/
theorem roundsMoveGroupsOfBits : Obligations.RoundsMoveGroupsOfBits := by
  intro n k i hk
  have hl : 0 < 2 ^ (4 - k) := Nat.two_pow_pos _
  have hr : 0 < 2 ^ k := Nat.two_pow_pos _
  refine ⟨?_, ?_, ?_, ?_⟩
  · rw [Primitive.bit_after_of_groups (by decide) (by decide) hl (by decide) (spread2_after_two_pow k hk), Nat.one_mul]
    exact if_congr (lt_groupSource_two_iff (Nat.sub_le 4 k)) rfl rfl
  · rw [Primitive.bit_after_of_groups (by decide) (by decide) hr (by decide) (unspread2_after_two_pow k hk)]
    exact if_congr (lt_groupSource_two_iff hk) rfl rfl
  · rw [Primitive.bit_after_of_groups (by decide) (by decide) hl (by decide) (spread3_after_two_pow k hk), Nat.one_mul]
    rfl
  · rw [Primitive.bit_after_of_groups (by decide) (by decide) hr (by decide) (unspread3_after_two_pow k hk)]
    rfl

/-- Primitives of one combining operator that agree on the operand bits one by one agree on every operand. -/
theorem Primitive.run_eq_of_basis {p q : Primitive} {len : Nat} (hcombine : p.combine = q.combine)
    (hp : p.entry < 2 ^ len) (hq : q.entry < 2 ^ len) (hbasis : ∀ j < len, p.run (2 ^ j) = q.run (2 ^ j)) (n : Nat) :
    p.run n = q.run n := by
  simp only [Primitive.run_eq_after] at hbasis ⊢
  rw [← p.after_mod hp, ← q.after_mod hq]
  clear hp hq
  induction len with
  | zero => rw [Nat.pow_zero, Nat.mod_one, p.after_zero, q.after_zero]
  | succ len ih =>
    have hbit : p.after p.rounds.length (bit n len * 2 ^ len) = q.after q.rounds.length (bit n len * 2 ^ len) := by
      rcases bit_eq_zero_or_one n len with h | h
      · rw [h, Nat.zero_mul, p.after_zero, q.after_zero]
      · rw [h, Nat.one_mul, hbasis len (Nat.lt_succ_self len)]
    have hlow := ih fun j hj => hbasis j (Nat.lt_succ_of_lt hj)
    rw [p.combine.mod_two_pow_succ, p.after_combine, hlow, hbit, hcombine, ← q.after_combine]

/-- Settles O35: the rounds drop the operand bits 10 to 15, so the three entry masks agree on every bit of 16. -/
theorem widerEntryMaskIsIndistinguishable : Obligations.WiderEntryMaskIsIndistinguishable := fun n =>
  ⟨Primitive.run_eq_of_basis (p := { spread3Rounds with entry := 0x3FFF }) (q := spread3Rounds) (len := 16) rfl
      (by decide) (by decide) (by decide) n,
    Primitive.run_eq_of_basis (p := { spread3Rounds with entry := 0xFFFF }) (q := spread3Rounds) (len := 16) rfl
      (by decide) (by decide) (by decide) n⟩

/-! ### A datapath of 32 bits (R92) -/

theorem mod_two_pow_and {m len : Nat} (h : m < 2 ^ len) (n : Nat) : n % 2 ^ len &&& m = n &&& m := by
  have hm : (n &&& m) % 2 ^ len = n &&& m := Nat.mod_eq_of_lt (Nat.lt_of_le_of_lt Nat.and_le_right h)
  rw [← hm, Nat.and_mod_two_pow, Nat.mod_eq_of_lt h]

theorem Combine.toNat_apply32 (c : Combine) (u v : BitVec 32) :
    (c.apply32 u v).toNat = c.apply u.toNat v.toNat := by
  cases c <;> rfl

/-- The 32-bit shift is the unbounded one cut to 32 bits. -/
theorem Direction.toNat_shift32 (d : Direction) (v : BitVec 32) (k : Nat) :
    (d.shift32 v k).toNat = d.shift v.toNat k % 2 ^ 32 := by
  cases d with
  | left => exact BitVec.toNat_shiftLeft
  | right =>
    have hle : v.toNat >>> k ≤ v.toNat := Nat.shiftRight_le ..
    exact (BitVec.toNat_ushiftRight v k).trans (Nat.mod_eq_of_lt (Nat.lt_of_le_of_lt hle v.isLt)).symm

/-- What a 32-bit round discards, a 32-bit mask would remove. -/
theorem Primitive.toNat_round32 (p : Primitive) (t : BitVec 32) {r : Round} (hr : r.mask < 2 ^ 32) :
    (p.round32 t r).toNat = p.round t.toNat r := by
  rw [Primitive.round32, Primitive.round, BitVec.toNat_and, Combine.toNat_apply32, Direction.toNat_shift32,
    BitVec.toNat_ofNat, Nat.mod_eq_of_lt hr, Combine.apply_and, mod_two_pow_and hr, ← Combine.apply_and]

theorem Primitive.toNat_foldl_round32 (p : Primitive) {rs : List Round} (hrs : ∀ r ∈ rs, r.mask < 2 ^ 32)
    (t : BitVec 32) : (rs.foldl p.round32 t).toNat = rs.foldl p.round t.toNat := by
  induction rs generalizing t with
  | nil => rfl
  | cons r rs ih =>
    obtain ⟨hr, hrs⟩ := List.forall_mem_cons.1 hrs
    rw [List.foldl_cons, ih hrs, p.toNat_round32 t hr, List.foldl_cons]

theorem Primitive.toNat_run32 (p : Primitive) (hentry : p.entry < 2 ^ 32) (hmasks : ∀ r ∈ p.rounds, r.mask < 2 ^ 32)
    (n : Nat) : (p.run32 (BitVec.ofNat 32 n)).toNat = p.run n := by
  rw [Primitive.run32, p.toNat_foldl_round32 hmasks, BitVec.toNat_and, BitVec.toNat_ofNat, BitVec.toNat_ofNat,
    Nat.mod_eq_of_lt hentry, mod_two_pow_and hentry, Primitive.run]

/-- Settles O33: every entry mask and every round's mask of R95 has 32 bits. -/
theorem thirtyTwoBitDatapathIsEnough : Obligations.ThirtyTwoBitDatapathIsEnough := fun n =>
  ⟨spread2Rounds.toNat_run32 (by decide) (by decide) n, unspread2Rounds.toNat_run32 (by decide) (by decide) n,
    spread3Rounds.toNat_run32 (by decide) (by decide) n, unspread3Rounds.toNat_run32 (by decide) (by decide) n⟩

end Sys2Proof

namespace Sys2Proof

/-! ### `|` and `^` in the rounds (R93): what the masks leave of a value and of its shifted copy -/

/-- Each round with the mask its operand obeys: the entry mask, then the mask of the round before. -/
def Primitive.stages (p : Primitive) : List (Nat × Round) := (p.entry :: p.rounds.map Round.mask).zip p.rounds

theorem Primitive.after_succ {p : Primitive} {k : Nat} {r : Round} (h : p.rounds[k]? = some r) (n : Nat) :
    p.after (k + 1) n = p.round (p.after k n) r := by
  rw [Primitive.after, Primitive.after, List.take_add_one, h, List.foldl_append]
  rfl

/-- The value a round starts from is one its stage's mask leaves unchanged. -/
theorem Primitive.exists_stage {p : Primitive} {k : Nat} {r : Round} (h : p.rounds[k]? = some r) (n : Nat) :
    ∃ m, (m, r) ∈ p.stages ∧ p.after k n &&& m = p.after k n := by
  cases k with
  | zero =>
    have hmem : (p.entry, r) ∈ p.stages := List.mem_of_getElem? (List.getElem?_zip_eq_some.2 ⟨rfl, h⟩)
    exact ⟨p.entry, hmem, by rw [Primitive.after, List.take_zero, List.foldl_nil, Nat.and_assoc, Nat.and_self]⟩
  | succ k =>
    obtain ⟨r', hr'⟩ : ∃ r', p.rounds[k]? = some r' :=
      ⟨_, List.getElem?_eq_getElem (Nat.lt_of_succ_lt (List.getElem?_eq_some_iff.1 h).1)⟩
    have hmask : (p.entry :: p.rounds.map Round.mask)[k + 1]? = some r'.mask := by
      rw [List.getElem?_cons_succ, List.getElem?_map, hr', Option.map_some]
    have hmem : (r'.mask, r) ∈ p.stages := List.mem_of_getElem? (List.getElem?_zip_eq_some.2 ⟨hmask, h⟩)
    exact ⟨r'.mask, hmem, by rw [Primitive.after_succ hr', Primitive.round_and_mask]⟩

theorem Direction.shift_and (d : Direction) (u v k : Nat) : d.shift (u &&& v) k = d.shift u k &&& d.shift v k := by
  cases d
  · exact Nat.shiftLeft_and_distrib
  · exact Nat.shiftRight_and_distrib

/-- A value meets its shifted copy only where the mask it obeys meets the mask's shifted copy. -/
theorem Direction.and_shift_of_mask {d : Direction} {t m : Nat} (h : t &&& m = t) (k : Nat) :
    (t &&& d.shift t k) &&& (m &&& d.shift m k) = t &&& d.shift t k := by
  conv_rhs => rw [← h, Direction.shift_and]
  ac_rfl

/-- In every round the round's mask removes all that the masks let a value and its shifted copy have in common. -/
def Primitive.masksSeparate (p : Primitive) : Prop :=
  ∀ st ∈ p.stages, (st.1 &&& p.direction.shift st.1 st.2.shift) &&& st.2.mask = 0

/-- In every round the masks let a value and its shifted copy have nothing in common. -/
def Primitive.masksDisjoint (p : Primitive) : Prop :=
  ∀ st ∈ p.stages, st.1 &&& p.direction.shift st.1 st.2.shift = 0

theorem Primitive.masksDisjoint.and_shift_eq_zero {p : Primitive} (hp : p.masksDisjoint) {k : Nat} {r : Round}
    (h : p.rounds[k]? = some r) (n : Nat) : p.after k n &&& p.direction.shift (p.after k n) r.shift = 0 := by
  obtain ⟨m, hmem, hm⟩ := p.exists_stage h n
  rw [← Direction.and_shift_of_mask hm, hp _ hmem, Nat.and_zero]

theorem Primitive.masksSeparate.and_shift_eq_zero {p : Primitive} (hp : p.masksSeparate) {k : Nat} {r : Round}
    (h : p.rounds[k]? = some r) (n : Nat) :
    (p.after k n &&& p.direction.shift (p.after k n) r.shift) &&& r.mask = 0 := by
  obtain ⟨m, hmem, hm⟩ := p.exists_stage h n
  rw [← Direction.and_shift_of_mask hm, Nat.and_assoc, hp _ hmem, Nat.and_zero]

/-- What a mask keeps of two values decides whether their `|` and `^` agree under it. -/
theorem or_and_eq_xor_and {u v m : Nat} (h : (u &&& v) &&& m = 0) : (u ||| v) &&& m = (u ^^^ v) &&& m := by
  have hmasked : (u &&& m) &&& (v &&& m) = 0 := by
    rw [← h, Nat.and_assoc, Nat.and_comm v m, ← Nat.and_assoc m, Nat.and_self, Nat.and_comm m, Nat.and_assoc]
  rw [Nat.and_or_distrib_right, Nat.and_xor_distrib_right, or_eq_xor_of_and_eq_zero hmasked]

theorem Primitive.masksSeparate.round_or_eq_round_xor {p : Primitive} (hp : p.masksSeparate) {k : Nat} {r : Round}
    (h : p.rounds[k]? = some r) (n : Nat) :
    ({ p with combine := .or }).round (p.after k n) r = ({ p with combine := .xor }).round (p.after k n) r :=
  or_and_eq_xor_and (hp.and_shift_eq_zero h n)

/-- A round of the primitive is the round with either operator. -/
theorem Primitive.masksSeparate.round_combine_eq {p : Primitive} (hp : p.masksSeparate) (c : Combine) {k : Nat}
    {r : Round} (h : p.rounds[k]? = some r) (n : Nat) :
    ({ p with combine := c }).round (p.after k n) r = p.round (p.after k n) r := by
  have hor := hp.round_or_eq_round_xor h n
  obtain ⟨entry, combine, direction, rounds⟩ := p
  cases c <;> cases combine
  · rfl
  · exact hor
  · exact hor.symm
  · rfl

theorem Primitive.masksSeparate.after_combine_eq {p : Primitive} (hp : p.masksSeparate) (c : Combine) (k n : Nat) :
    ({ p with combine := c }).after k n = p.after k n := by
  induction k with
  | zero => rfl
  | succ k ih =>
    cases h : p.rounds[k]? with
    | some r => rw [Primitive.after_succ (p := { p with combine := c }) h, ih, hp.round_combine_eq c h, Primitive.after_succ h]
    | none => simpa [Primitive.after, List.take_add_one, h] using ih

theorem Primitive.masksSeparate.run_combine_eq {p : Primitive} (hp : p.masksSeparate) (c : Combine) (n : Nat) :
    ({ p with combine := c }).run n = p.run n := by
  rw [Primitive.run_eq_after, hp.after_combine_eq, ← Primitive.run_eq_after]

theorem primitives_masksSeparate :
    ∀ p ∈ [spread2Rounds, unspread2Rounds, spread3Rounds, unspread3Rounds], p.masksSeparate := by
  unfold Primitive.masksSeparate
  decide

theorem primitives_masksDisjoint : ∀ p ∈ [unspread2Rounds, spread3Rounds, unspread3Rounds], p.masksDisjoint := by
  unfold Primitive.masksDisjoint
  decide

/-- Settles O34: a comparison of the masks of R95 decides every round; the first round of `spread2` is the exception
the statement names. -/
theorem orAndXorAgreeInEveryRound : Obligations.OrAndXorAgreeInEveryRound := by
  refine ⟨fun p hp => ?_, fun p hp n k r h => ?_, by decide, by decide⟩
  · have hsep := primitives_masksSeparate p hp
    exact ⟨fun n k r h => hsep.round_or_eq_round_xor h n,
      fun n => ⟨hsep.run_combine_eq .or n, hsep.run_combine_eq .xor n⟩⟩
  · have hzero := (primitives_masksDisjoint p hp).and_shift_eq_zero h n
    exact ⟨hzero, (add_eq_or_of_and_eq_zero hzero).symm⟩

end Sys2Proof

namespace Sys2Proof

/-! ### What `trunc_W` leaves unchanged, and what it makes of the pair and quad codes -/

/-- A legal width truncates nothing below `2^32`. -/
theorem PortWidth.trunc_of_lt {w : PortWidth} (hw : w.wf = true) {v : Nat} (h : v < 2 ^ 32) : w.trunc v = v :=
  w.trunc_of_fits (PortWidth.fits_of_lt hw h)

/-- A value fits where one fits that holds each of its bits at the same place or above. -/
theorem PortWidth.fits_of_testBit {w : PortWidth} {u v : Nat} {place : Nat → Nat} (hplace : ∀ k, k ≤ place k)
    (h : ∀ k, u.testBit k = v.testBit (place k)) (hv : w.fits v = true) : w.fits u = true := by
  cases w with
  | bits m =>
    have hlt : v < 2 ^ m := of_decide_eq_true hv
    refine decide_eq_true (Nat.lt_pow_two_of_testBit u fun k hk => ?_)
    rw [h]
    have hle := hplace k
    exact testBit_of_bitlen_le ((bitlen_le_iff v (place k)).2
      (Nat.lt_of_lt_of_le hlt (Nat.pow_le_pow_right (by decide) (by omega))))
  | inf => rfl

theorem PortWidth.fits_deinterleave2 {w : PortWidth} {n : Nat} (h : w.fits n = true) :
    w.fits (deinterleave2 n).1 = true ∧ w.fits (deinterleave2 n).2 = true :=
  ⟨PortWidth.fits_of_testBit (fun k => by omega) (testBit_deinterleave2_fst n) h,
    PortWidth.fits_of_testBit (fun k => by omega) (testBit_deinterleave2_snd n) h⟩

theorem PortWidth.trunc_deinterleave2 {w : PortWidth} {n : Nat} (h : w.fits n = true) :
    w.trunc (deinterleave2 n).1 = (deinterleave2 n).1 ∧ w.trunc (deinterleave2 n).2 = (deinterleave2 n).2 := by
  obtain ⟨hx, hy⟩ := PortWidth.fits_deinterleave2 h
  exact ⟨w.trunc_of_fits hx, w.trunc_of_fits hy⟩

/-- Both levels of `deinterleave4` deinterleave values that fit. -/
theorem PortWidth.trunc_deinterleave4 {w : PortWidth} {n : Nat} (h : w.fits n = true) :
    w.trunc (deinterleave4 n).1 = (deinterleave4 n).1 ∧ w.trunc (deinterleave4 n).2.1 = (deinterleave4 n).2.1 ∧
      w.trunc (deinterleave4 n).2.2.1 = (deinterleave4 n).2.2.1 ∧
      w.trunc (deinterleave4 n).2.2.2 = (deinterleave4 n).2.2.2 := by
  obtain ⟨hp, hq⟩ := PortWidth.fits_deinterleave2 h
  obtain ⟨hw, hy⟩ := PortWidth.trunc_deinterleave2 hp
  obtain ⟨hx, hz⟩ := PortWidth.trunc_deinterleave2 hq
  exact ⟨hw, hx, hy, hz⟩

/-- The low `2k` code bits are the code of the operands' low `k` bits. -/
theorem interleave2_mod (x y k : Nat) : interleave2 x y % 2 ^ (2 * k) = interleave2 (x % 2 ^ k) (y % 2 ^ k) := by
  refine Nat.eq_of_testBit_eq fun i => ?_
  have hlt : i / 2 < k ↔ i < 2 * k := by omega
  rw [Nat.testBit_mod_two_pow, testBit_interleave2, testBit_interleave2, Nat.testBit_mod_two_pow,
    Nat.testBit_mod_two_pow]
  by_cases hi : i < 2 * k <;> simp [hlt, hi]

theorem interleave4_mod (w x y z k : Nat) :
    interleave4 w x y z % 2 ^ (4 * k) = interleave4 (w % 2 ^ k) (x % 2 ^ k) (y % 2 ^ k) (z % 2 ^ k) := by
  have h4 : 4 * k = 2 * (2 * k) := by omega
  rw [interleave4, h4, interleave2_mod, interleave2_mod, interleave2_mod, interleave4]

/-- The pair command's code is that of the operands cut to half the width (R104). -/
theorem PortWidth.trunc_interleave2 {w : PortWidth} (hw : w.wf = true) (x y : Nat) :
    w.trunc (interleave2 x y) = interleave2 ((w.share 2).trunc x) ((w.share 2).trunc y) := by
  cases w with
  | bits m =>
    have hm : m = 2 * (m / 2) := by simp [PortWidth.wf] at hw; omega
    have hmod := interleave2_mod x y (m / 2)
    rwa [← hm] at hmod
  | inf => rfl

/-- The quad command's code is that of the operands cut to a quarter of the width (R139). -/
theorem PortWidth.trunc_interleave4 {w : PortWidth} (hw : w.wf = true) (a b c d : Nat) :
    w.trunc (interleave4 a b c d) = interleave4 ((w.share 4).trunc a) ((w.share 4).trunc b) ((w.share 4).trunc c)
      ((w.share 4).trunc d) := by
  cases w with
  | bits m =>
    have hm : m = 4 * (m / 4) := by simp [PortWidth.wf] at hw; omega
    have hmod := interleave4_mod a b c d (m / 4)
    rwa [← hm] at hmod
  | inf => rfl

/-! ### Deinterleaving loses nothing -/

theorem interleave2_deinterleave2 (n : Nat) : interleave2 (deinterleave2 n).1 (deinterleave2 n).2 = n := by
  refine Nat.eq_of_testBit_eq fun k => ?_
  rw [testBit_interleave2, testBit_deinterleave2_fst, testBit_deinterleave2_snd]
  split
  · next hk => rw [show 2 * (k / 2) = k by omega]
  · next hk => rw [show 2 * (k / 2) + 1 = k by omega]

theorem interleave4_deinterleave4 (n : Nat) :
    interleave4 (deinterleave4 n).1 (deinterleave4 n).2.1 (deinterleave4 n).2.2.1 (deinterleave4 n).2.2.2 = n := by
  simp only [interleave4, deinterleave4, interleave2_deinterleave2]

/-- Settles O10: the unaffected results are short on every width or no longer than a fitting operand; the two codes
are one bit too long for 32 bits. -/
theorem truncationTouchesOnlyTwoCodes : Obligations.TruncationTouchesOnlyTwoCodes := by
  refine ⟨fun width n x y z hw => ?_, fun width n hn => ?_, by decide, by decide⟩
  · obtain ⟨hx, hy, hz⟩ := deinterleave3_lt n
    have h2 := spread2_lt n
    have h2' := unspread2_lt n
    have h3 := spread3_lt n
    have h3' := unspread3_lt n
    have hcode := interleave3_lt x y z
    refine ⟨?_, ?_, ?_, ?_, ?_, ?_, ?_, ?_⟩ <;> exact PortWidth.trunc_of_lt hw (by omega)
  · obtain ⟨hx, hy⟩ := PortWidth.trunc_deinterleave2 hn
    exact ⟨hx, hy, PortWidth.trunc_deinterleave4 hn⟩

end Sys2Proof

namespace Sys2Proof.Machine

/-! ### Commands: the response, the step that runs them, and what decides it -/

/-- Settles O11: `exec` drives the unbounded results, and those are the wiring's. -/
theorem everyOperationIsWiring : Obligations.EveryOperationIsWiring := by
  intro i s
  rw [exec_eq, State.drive_unboundedResults]

/-- Two instructions have one outcome exactly when they drive one response. -/
theorem exec_eq_exec_iff (i j : Instr) (s : State) :
    exec i s = exec j s ↔ respond s.width (unboundedResults i) = respond s.width (unboundedResults j) := by
  rw [exec_eq, exec_eq]
  constructor
  · intro h
    exact Port.definite.inj (congrArg State.output (Host.Outcome.next.inj h))
  · intro h
    rw [State.drive, State.drive, h]

/-- Instructions with the same results have one outcome. -/
theorem exec_congr {i j : Instr} (h : unboundedResults i = unboundedResults j) (s : State) : exec i s = exec j s := by
  rw [exec_eq, exec_eq, h]

/-- A scalar result that a legal width does not cut stands on `r0` as it is. -/
theorem exec_of_scalar {i : Instr} {v : Nat} {s : State} (hw : s.width.wf = true) (hi : unboundedResults i = [v])
    (hv : v < 2 ^ 32) : exec i s = .next (s.withResponse ⟨v, 0, 0, 0⟩) := by
  rw [exec_eq, State.drive, hi, respond_one, PortWidth.trunc_of_lt hw hv]

/-- The instruction whose code stands on `op` and whose operands stand on the ports of R58 is the one a step runs. -/
theorem step_eq_exec {s : State} {i : Instr} (hop : s.input.op = .definite i.opCode)
    (hports : ∀ p ∈ operandPorts i.opCode, s.input.operand p = (encode i).operand p) : step s = exec i s :=
  stepRunsTheDecodedInstruction s i ((decodeAndEncodeAgree.2 s.input i).2 ⟨hop, hports⟩)

/-- Settles O14: outside its window no operand bit reaches the results, or none of the results that `trunc_W` keeps;
and the results of a deinterleave command, which fit their ports, interleave to its operand. -/
theorem onlyWindowBitsAffectTheResponse : Obligations.OnlyWindowBitsAffectTheResponse := by
  intro s hw
  refine ⟨fun n n' h => ?_, fun n n' h => ?_, fun n n' h => ?_, fun n n' h => ?_, fun x y x' y' hx hy => ?_,
    fun n n' hn hn' h => ?_, fun x y z x' y' z' hx hy hz => ?_, fun n n' h => ?_,
    fun w x y z w' x' y' z' hw' hx hy hz => ?_, fun n n' hn hn' h => ?_⟩
  · exact exec_congr (by rw [unboundedResults, unboundedResults, spread2_congr h]) s
  · exact exec_congr (by rw [unboundedResults, unboundedResults, unspread2_congr h]) s
  · exact exec_congr (by rw [unboundedResults, unboundedResults, spread3_congr h]) s
  · exact exec_congr (by rw [unboundedResults, unboundedResults, unspread3_congr h]) s
  · simp only [exec_eq_exec_iff, unboundedResults, respond_one, PortWidth.trunc_interleave2 hw, hx, hy]
  · obtain ⟨hx, hy⟩ := PortWidth.trunc_deinterleave2 hn
    obtain ⟨hx', hy'⟩ := PortWidth.trunc_deinterleave2 hn'
    simp only [exec_eq_exec_iff, unboundedResults, respond_two, hx, hy, hx', hy', Response.mk.injEq] at h
    obtain ⟨h0, h1, -⟩ := h
    rw [← interleave2_deinterleave2 n, h0, h1, interleave2_deinterleave2]
  · have hsame : interleave3 x y z = interleave3 x' y' z' := by
      rw [interleave3, spread3_congr hx, spread3_congr hy, spread3_congr hz, interleave3]
    exact exec_congr (by rw [unboundedResults, unboundedResults, hsame]) s
  · have hsame : deinterleave3 n = deinterleave3 n' := by rw [← deinterleave3_mod, h, deinterleave3_mod]
    exact exec_congr (by rw [unboundedResults, unboundedResults, hsame]) s
  · simp only [exec_eq_exec_iff, unboundedResults, respond_one, PortWidth.trunc_interleave4 hw, hw', hx, hy, hz]
  · obtain ⟨hw, hx, hy, hz⟩ := PortWidth.trunc_deinterleave4 hn
    obtain ⟨hw', hx', hy', hz'⟩ := PortWidth.trunc_deinterleave4 hn'
    simp only [exec_eq_exec_iff, unboundedResults, respond_four, hw, hx, hy, hz, hw', hx', hy', hz',
      Response.mk.injEq] at h
    obtain ⟨h0, h1, h2, h3⟩ := h
    rw [← interleave4_deinterleave4 n, h0, h1, h2, h3, interleave4_deinterleave4]

/-- Settles O22: a pseudocode value below `2^31` stands on `r0` as it is, and the corner cases are computed. -/
theorem spread2FollowsItsPseudocode : Obligations.Spread2FollowsItsPseudocode := by
  refine ⟨fun s n hw => ?_, fun s n hop ha => step_eq_exec hop (List.forall_mem_singleton.2 ha), by decide, by decide,
    by decide, by decide, by decide, by decide, by decide, by decide, spread2_lt⟩
  have hlt := spread2_lt n
  exact exec_of_scalar (v := spread2 n) hw rfl (by omega)

/-- Settles O23: as for `spread2`, with values below `2^16`. -/
theorem unspread2FollowsItsPseudocode : Obligations.Unspread2FollowsItsPseudocode := by
  refine ⟨fun s n hw => ?_, fun s n hop ha => step_eq_exec hop (List.forall_mem_singleton.2 ha), by decide, by decide,
    by decide, by decide, by decide, by decide, by decide, by decide, by decide, by decide, unspread2_lt⟩
  have hlt := unspread2_lt n
  exact exec_of_scalar (v := unspread2 n) hw rfl (by omega)

/-- Settles O24: as for `spread2`, with values below `2^28`. -/
theorem spread3FollowsItsPseudocode : Obligations.Spread3FollowsItsPseudocode := by
  refine ⟨fun s n hw => ?_, fun s n hop ha => step_eq_exec hop (List.forall_mem_singleton.2 ha), by decide, by decide,
    by decide, by decide, by decide, by decide, by decide, by decide, spread3_lt⟩
  have hlt := spread3_lt n
  exact exec_of_scalar (v := spread3 n) hw rfl (by omega)

/-- Settles O25: as for `spread2`, with values below `2^10`. -/
theorem unspread3FollowsItsPseudocode : Obligations.Unspread3FollowsItsPseudocode := by
  refine ⟨fun s n hw => ?_, fun s n hop ha => step_eq_exec hop (List.forall_mem_singleton.2 ha), by decide, by decide,
    by decide, by decide, by decide, by decide, by decide, by decide, by decide, unspread3_lt⟩
  have hlt := unspread3_lt n
  exact exec_of_scalar (v := unspread3 n) hw rfl (by omega)

end Sys2Proof.Machine

namespace Sys2Proof

/-! ### The chunk loops (R101, R103, R106, R107) and the chunk cells (R112): what they compute at every count -/

/-- At any count the loop holds the code's bits below the last chunk's end. -/
theorem interleave2Loop_eq_mod (cnt x y : Nat) : interleave2Loop cnt x y = interleave2 x y % 2 ^ (32 * cnt) := by
  refine Nat.eq_of_testBit_eq fun k => ?_
  rw [testBit_interleave2Loop, Nat.testBit_mod_two_pow, testBit_interleave2]

/-- At any count the loop holds the results' bits below the last chunk's end. -/
theorem deinterleave2Loop_eq_mod (cnt n : Nat) :
    deinterleave2Loop cnt n = ((deinterleave2 n).1 % 2 ^ (16 * cnt), (deinterleave2 n).2 % 2 ^ (16 * cnt)) := by
  refine Prod.ext (Nat.eq_of_testBit_eq fun k => ?_) (Nat.eq_of_testBit_eq fun k => ?_)
  · rw [(testBit_deinterleave2Loop cnt n k).1, Nat.testBit_mod_two_pow, testBit_deinterleave2_fst]
  · rw [(testBit_deinterleave2Loop cnt n k).2, Nat.testBit_mod_two_pow, testBit_deinterleave2_snd]

/-- Above a value's length addition of a shifted value is `|`. -/
theorem add_two_pow_mul_eq_or_shiftLeft {u i : Nat} (h : u < 2 ^ i) (v : Nat) : u + 2 ^ i * v = u ||| (v <<< i) := by
  rw [Nat.add_comm, Nat.two_pow_add_eq_or_of_lt h, Nat.or_comm, Nat.shiftLeft_eq, Nat.mul_comm]

/-- Each cell adds its chunk above all the earlier ones, where the loop puts it with `|`. -/
theorem interleave2Cells_eq_loop (k x y : Nat) : interleave2Cells k x y = interleave2Loop k x y := by
  induction k with
  | zero => rfl
  | succ k ih =>
    have hlt : interleave2Loop k x y < 2 ^ (32 * k) :=
      interleave2Loop_eq_mod k x y ▸ Nat.mod_lt _ (Nat.two_pow_pos _)
    rw [interleave2Cells, ih, add_two_pow_mul_eq_or_shiftLeft hlt, interleave2Loop_succ]

theorem deinterleave2Cells_eq_loop (k n : Nat) : deinterleave2Cells k n = deinterleave2Loop k n := by
  induction k with
  | zero => rfl
  | succ k ih =>
    have hx : (deinterleave2Loop k n).1 < 2 ^ (16 * k) :=
      deinterleave2Loop_eq_mod k n ▸ Nat.mod_lt _ (Nat.two_pow_pos _)
    have hy : (deinterleave2Loop k n).2 < 2 ^ (16 * k) :=
      deinterleave2Loop_eq_mod k n ▸ Nat.mod_lt _ (Nat.two_pow_pos _)
    rw [deinterleave2Cells, ih, add_two_pow_mul_eq_or_shiftLeft hx, add_two_pow_mul_eq_or_shiftLeft hy,
      deinterleave2Loop_succ]

/-- The two accumulators of the loop never meet. -/
theorem deinterleave2Loop_eq_foldl (cnt n : Nat) :
    deinterleave2Loop cnt n =
      ((List.range cnt).foldl (fun x i => x ||| (unspread2 (codeChunk n i) <<< (16 * i))) 0,
       (List.range cnt).foldl (fun y i => y ||| (unspread2 (codeChunk n i >>> 1) <<< (16 * i))) 0) :=
  List.foldl_hom₂ _ Prod.mk _ _ _ 0 0 fun _ _ _ => rfl

/-! ### Lengths (R105, R107, R138, R141) -/

/-- A value is below `2^k` exactly when it has no bit from `k` on. -/
theorem lt_two_pow_iff_testBit (v k : Nat) : v < 2 ^ k ↔ ∀ i, k ≤ i → v.testBit i = false :=
  ⟨fun h _ hi => testBit_of_bitlen_le (Nat.le_trans ((bitlen_le_iff v k).2 h) hi), Nat.lt_pow_two_of_testBit v⟩

/-- The code's last bit is the last of `x` at `2j` or the last of `y` at `2j+1`. -/
theorem bitlen_interleave2 (x y : Nat) : bitlen (interleave2 x y) = max (2 * bitlen x - 1) (2 * bitlen y) := by
  refine eq_of_forall_ge_iff fun k => ?_
  have hx : 2 * bitlen x - 1 ≤ k ↔ bitlen x ≤ (k + 1) / 2 := by omega
  have hy : 2 * bitlen y ≤ k ↔ bitlen y ≤ k / 2 := by omega
  simp only [max_le_iff, hx, hy, bitlen_le_iff, lt_two_pow_iff_testBit, testBit_interleave2]
  constructor
  · intro h
    refine ⟨fun i hi => ?_, fun i hi => ?_⟩
    · simpa using h (2 * i) (by omega)
    · simpa [Nat.mul_add_div] using h (2 * i + 1) (by omega)
  · rintro ⟨hx, hy⟩ i hi
    split
    · exact hx _ (by omega)
    · exact hy _ (by omega)

/-- An operand is as long as the code of its two results (R107). -/
theorem bitlen_deinterleave2 (n : Nat) :
    bitlen (deinterleave2 n).1 ≤ (bitlen n + 1) / 2 ∧ bitlen (deinterleave2 n).2 ≤ bitlen n / 2 := by
  have h := bitlen_interleave2 (deinterleave2 n).1 (deinterleave2 n).2
  rw [interleave2_deinterleave2] at h
  omega

/-- Enough chunks for both operands are enough for the code. -/
theorem interleave2Loop_of_bitlen_le {cnt x y : Nat} (h : max (bitlen x) (bitlen y) ≤ 16 * cnt) :
    interleave2Loop cnt x y = interleave2 x y := by
  have hlen := bitlen_interleave2 x y
  rw [interleave2Loop_eq_mod, Nat.mod_eq_of_lt ((bitlen_le_iff _ _).1 (by omega))]

theorem deinterleave2Loop_of_bitlen_le {cnt n : Nat} (h : bitlen n ≤ 32 * cnt) :
    deinterleave2Loop cnt n = deinterleave2 n := by
  obtain ⟨hx, hy⟩ := bitlen_deinterleave2 n
  rw [deinterleave2Loop_eq_mod, Nat.mod_eq_of_lt ((bitlen_le_iff _ _).1 (by omega)),
    Nat.mod_eq_of_lt ((bitlen_le_iff _ _).1 (by omega))]

/-- Settles O46: a count at or above the formula's has enough chunks for the operands. -/
theorem iterationCountIsNotObservable : Obligations.IterationCountIsNotObservable :=
  ⟨fun cnt _ _ h => interleave2Loop_of_bitlen_le ((ceilDiv_le_iff (by decide) cnt).1 h),
    fun cnt _ h => deinterleave2Loop_of_bitlen_le ((ceilDiv_le_iff (by decide) cnt).1 h)⟩

theorem interleave2_zero_right (x : Nat) : interleave2 x 0 = scatter 2 0 x (bitlen x) := by
  simp [interleave2_eq_scatter, bitlen, scatter]

theorem interleave2_zero_left (y : Nat) : interleave2 0 y = scatter 2 1 y (bitlen y) := by
  simp [interleave2_eq_scatter, bitlen, scatter]

/-- Settles O45: every length follows from that of a pair code, of which the quad code is three; a code is the sum of
operands scattered to different offsets. -/
theorem codeAndResultLengths : Obligations.CodeAndResultLengths := by
  refine ⟨bitlen_interleave2, fun x y => ⟨?_, ?_⟩, fun n => ?_, interleave3_lt, fun n => ?_,
    fun w x y z L hw hx hy hz => ?_, fun n => ?_⟩
  · rw [interleave2_eq_scatter, interleave2_zero_right, interleave2_zero_left,
      add_eq_or_of_and_eq_zero (scatter_and_scatter 0 1 (by decide) ..)]
  · rw [interleave2_zero_left, interleave2_zero_right, scatter_shiftLeft]
  · simpa only [bitlen_le_iff] using bitlen_deinterleave2 n
  · obtain ⟨hx, hy, hz⟩ := deinterleave3_lt n
    have hmask : n &&& 0x3FFFFFFF = n % 2 ^ 30 := Nat.and_two_pow_sub_one_eq_mod n 30
    exact ⟨hx, hy, hz, by rw [hmask, deinterleave3_mod]⟩
  · have hp := bitlen_interleave2 w y
    have hq := bitlen_interleave2 x z
    have hcode := bitlen_interleave2 (interleave2 w y) (interleave2 x z)
    rw [interleave4]
    omega
  · obtain ⟨hp, hq⟩ := bitlen_deinterleave2 n
    obtain ⟨hw, hy⟩ := bitlen_deinterleave2 (deinterleave2 n).1
    obtain ⟨hx, hz⟩ := bitlen_deinterleave2 (deinterleave2 n).2
    simp only [deinterleave4, ceilDiv]
    omega

/-! ### Deinterleaving, bit by bit, and both round trips (R107 to R109, R126, R128, R141, R143) -/

/-- Bit `k` of the result at place `p` is operand bit `3k+p`, for `k` below 10 (R126). -/
theorem testBit_deinterleave3 (n k : Nat) :
    (deinterleave3 n).1.testBit k = (decide (k < 10) && n.testBit (3 * k)) ∧
      (deinterleave3 n).2.1.testBit k = (decide (k < 10) && n.testBit (3 * k + 1)) ∧
      (deinterleave3 n).2.2.testBit k = (decide (k < 10) && n.testBit (3 * k + 2)) := by
  simp only [deinterleave3_eq_gather, testBit_gather, Nat.add_zero, and_self]

/-- Settles O44: each result holds every second, third or fourth bit of the operand. -/
theorem deinterleaveCollectsEveryNthBit : Obligations.DeinterleaveCollectsEveryNthBit := by
  refine ⟨fun n k => ?_, fun n k => ?_, fun n k => ?_⟩
  · simpa only [bit_eq_bit_iff] using testBit_deinterleave2 n k
  · obtain ⟨hx, hy, hz⟩ := testBit_deinterleave3 n k
    exact ⟨bit_eq_ite hx, bit_eq_ite hy, bit_eq_ite hz⟩
  · simpa only [bit_eq_bit_iff] using testBit_deinterleave4 n k

theorem deinterleave2_interleave2 (x y : Nat) : deinterleave2 (interleave2 x y) = (x, y) := by
  refine Prod.ext (Nat.eq_of_testBit_eq fun k => ?_) (Nat.eq_of_testBit_eq fun k => ?_)
  · rw [testBit_deinterleave2_fst, testBit_interleave2]
    simp
  · rw [testBit_deinterleave2_snd, testBit_interleave2]
    simp [Nat.mul_add_div]

theorem interleave2_inj {x y x' y' : Nat} : interleave2 x y = interleave2 x' y' ↔ x = x' ∧ y = y' := by
  refine ⟨fun h => ?_, fun ⟨hx, hy⟩ => hx ▸ hy ▸ rfl⟩
  have hback := congrArg deinterleave2 h
  simpa only [deinterleave2_interleave2, Prod.mk.injEq] using hback

/-- The triple code of the three results is the 30-bit window they were taken from (R128). -/
theorem interleave3_deinterleave3 (n : Nat) :
    interleave3 (deinterleave3 n).1 (deinterleave3 n).2.1 (deinterleave3 n).2.2 = n % 2 ^ 30 := by
  refine Nat.eq_of_testBit_eq fun k => ?_
  obtain ⟨hx, hy, hz⟩ := testBit_deinterleave3 n (k / 3)
  have hlt : k / 3 < 10 ↔ k < 30 := by omega
  rw [testBit_interleave3, hx, hy, hz, Nat.testBit_mod_two_pow]
  have hk : k = 3 * (k / 3) ∧ k % 3 = 0 ∨ k = 3 * (k / 3) + 1 ∧ k % 3 = 1 ∨ k = 3 * (k / 3) + 2 ∧ k % 3 = 2 := by
    omega
  rcases hk with ⟨hk, hm⟩ | ⟨hk, hm⟩ | ⟨hk, hm⟩ <;> simp [hm, hlt, ← hk]

/-! ### The capacity of the pair code (R104) -/

/-- `trunc_W` leaves a value as it is exactly when it fits. -/
theorem PortWidth.trunc_eq_self_iff (w : PortWidth) (v : Nat) : w.trunc v = v ↔ w.fits v = true :=
  ⟨fun h => h ▸ w.fits_trunc v, w.trunc_of_fits⟩

/-- A code fits exactly when both operands fit in half the width: cutting the code cuts the operands, and the code
tells its operands apart. -/
theorem PortWidth.trunc_interleave2_eq_iff {w : PortWidth} (hw : w.wf = true) (x y : Nat) :
    w.trunc (interleave2 x y) = interleave2 x y ↔ (w.share 2).fits x = true ∧ (w.share 2).fits y = true := by
  rw [PortWidth.trunc_interleave2 hw, interleave2_inj, PortWidth.trunc_eq_self_iff, PortWidth.trunc_eq_self_iff]

/-- The results of an operand that fits are half as long: their code is that operand. -/
theorem PortWidth.share_fits_deinterleave2 {w : PortWidth} (hw : w.wf = true) {n : Nat} (h : w.fits n = true) :
    (w.share 2).fits (deinterleave2 n).1 = true ∧ (w.share 2).fits (deinterleave2 n).2 = true := by
  rw [← PortWidth.trunc_interleave2_eq_iff hw, interleave2_deinterleave2, w.trunc_of_fits h]

/-! ### Flipped operand bits (R111, R130, R145): the codes are additive over `^` -/

theorem interleave2_xor (x y u v : Nat) :
    interleave2 (x ^^^ u) (y ^^^ v) = interleave2 x y ^^^ interleave2 u v := by
  refine Nat.eq_of_testBit_eq fun k => ?_
  simp only [Nat.testBit_xor, testBit_interleave2]
  split <;> rfl

theorem interleave3_xor (x y z u v t : Nat) :
    interleave3 (x ^^^ u) (y ^^^ v) (z ^^^ t) = interleave3 x y z ^^^ interleave3 u v t := by
  refine Nat.eq_of_testBit_eq fun k => ?_
  simp only [Nat.testBit_xor, testBit_interleave3]
  split_ifs <;> exact Bool.and_xor_distrib_left ..

theorem interleave4_xor (w x y z a b c d : Nat) :
    interleave4 (w ^^^ a) (x ^^^ b) (y ^^^ c) (z ^^^ d) = interleave4 w x y z ^^^ interleave4 a b c d := by
  rw [interleave4, interleave2_xor, interleave2_xor, interleave2_xor, interleave4, interleave4]

/-- One operand bit alone is one code bit (R105). -/
theorem interleave2_two_pow (k : Nat) :
    interleave2 (2 ^ k) 0 = 2 ^ (2 * k) ∧ interleave2 0 (2 ^ k) = 2 ^ (2 * k + 1) := by
  refine ⟨Nat.eq_of_testBit_eq fun i => ?_, Nat.eq_of_testBit_eq fun i => ?_⟩
  · rw [testBit_interleave2, Nat.testBit_two_pow, Nat.testBit_two_pow, Nat.zero_testBit]
    split
    · exact decide_eq_decide.2 (by omega)
    · exact (decide_eq_false (by omega)).symm
  · rw [testBit_interleave2, Nat.testBit_two_pow, Nat.testBit_two_pow, Nat.zero_testBit]
    split
    · exact (decide_eq_false (by omega)).symm
    · exact decide_eq_decide.2 (by omega)

theorem interleave3_two_pow : ∀ k < 10, interleave3 (2 ^ k) 0 0 = 2 ^ (3 * k) ∧
    interleave3 0 (2 ^ k) 0 = 2 ^ (3 * k + 1) ∧ interleave3 0 0 (2 ^ k) = 2 ^ (3 * k + 2) := by decide

theorem interleave4_two_pow (k : Nat) :
    interleave4 (2 ^ k) 0 0 0 = 2 ^ (4 * k) ∧ interleave4 0 (2 ^ k) 0 0 = 2 ^ (4 * k + 1) ∧
      interleave4 0 0 (2 ^ k) 0 = 2 ^ (4 * k + 2) ∧ interleave4 0 0 0 (2 ^ k) = 2 ^ (4 * k + 3) := by
  have hzero : interleave2 0 0 = 0 := rfl
  simp only [interleave4, hzero, interleave2_two_pow, Nat.pow_right_inj (Nat.le_refl 2)]
  omega

/-- An operand bit from 10 on reaches no triple code (R123). -/
theorem spread3_xor_two_pow {k : Nat} (hk : 10 ≤ k) (n : Nat) : spread3 (n ^^^ 2 ^ k) = spread3 n := by
  refine spread3_congr (Nat.eq_of_testBit_eq fun i => ?_)
  rw [Nat.testBit_mod_two_pow, Nat.testBit_mod_two_pow, Nat.testBit_xor, Nat.testBit_two_pow]
  by_cases hi : i < 10
  · simp [show k ≠ i by omega]
  · simp [hi]

/-- Adding 1 flips the trailing ones and the zero above them. -/
theorem succ_eq_xor_of_trailing_ones (m t : Nat) :
    m * 2 ^ (t + 1) + (2 ^ t - 1) + 1 = (m * 2 ^ (t + 1) + (2 ^ t - 1)) ^^^ (2 ^ (t + 1) - 1) := by
  have hpos := Nat.two_pow_pos t
  have hlt : 2 ^ t < 2 ^ (t + 1) := Nat.pow_lt_pow_right (by decide) (Nat.lt_succ_self t)
  have hsucc : m * 2 ^ (t + 1) + (2 ^ t - 1) + 1 = 2 ^ (t + 1) * m + 2 ^ t := by rw [Nat.mul_comm]; omega
  refine Nat.eq_of_testBit_eq fun i => ?_
  rw [hsucc, Nat.mul_comm m, Nat.testBit_xor, Nat.testBit_two_pow_mul_add _ hlt,
    Nat.testBit_two_pow_mul_add _ (by omega), Nat.testBit_two_pow_sub_one, Nat.testBit_two_pow_sub_one,
    Nat.testBit_two_pow]
  rcases Nat.lt_trichotomy i t with h | h | h
  · simp [h, Nat.ne_of_gt h, Nat.lt_succ_of_lt h]
  · simp [h]
  · simp [show ¬ i < t + 1 by omega]

theorem bitlen_two_pow_sub_one (t : Nat) : bitlen (2 ^ t - 1) = t := by
  refine eq_of_forall_ge_iff fun k => ?_
  have hpos := Nat.two_pow_pos t
  rw [bitlen_le_iff, ← Nat.pow_le_pow_iff_right (by decide : 1 < 2)]
  omega

/-- A run of ones at the bottom of the first operand is a run of even code bits. -/
theorem interleave2_two_pow_sub_one (t : Nat) : interleave2 (2 ^ t - 1) 0 = ∑ j ∈ Finset.range t, 2 ^ (2 * j) := by
  rw [interleave2_zero_right, bitlen_two_pow_sub_one, scatter_eq_sum]
  refine Finset.sum_congr rfl fun j hj => ?_
  have hone : bit (2 ^ t - 1) j = 1 := by
    rw [bit_eq_toNat_testBit, Nat.testBit_two_pow_sub_one]
    simpa using hj
  rw [hone, Nat.one_mul, Nat.add_zero]

/-- Settles O54: `^` on an operand is `^` with that operand's code alone, which is one bit for one bit, and
the even bits `0` to `2t` for the bits that adding 1 flips. -/
theorem oneOperandBitIsOneCodeBit : Obligations.OneOperandBitIsOneCodeBit := by
  refine ⟨fun x y k => ?_, fun m t x y hx => ?_, fun x y z k hk => ?_, fun x y z k hk => ?_, fun w x y z k => ?_⟩
  · obtain ⟨h0, h1⟩ := interleave2_two_pow k
    rw [← h0, ← h1, ← interleave2_xor, ← interleave2_xor, Nat.xor_zero, Nat.xor_zero]
    exact ⟨rfl, rfl⟩
  · rw [← interleave2_two_pow_sub_one, ← interleave2_xor, hx, succ_eq_xor_of_trailing_ones, Nat.xor_zero]
  · obtain ⟨h0, h1, h2⟩ := interleave3_two_pow k hk
    rw [← h0, ← h1, ← h2, ← interleave3_xor, ← interleave3_xor, ← interleave3_xor]
    simp only [Nat.xor_zero, and_self]
  · simp only [interleave3, spread3_xor_two_pow hk, and_self]
  · obtain ⟨h0, h1, h2, h3⟩ := interleave4_two_pow k
    rw [← h0, ← h1, ← h2, ← h3, ← interleave4_xor, ← interleave4_xor, ← interleave4_xor, ← interleave4_xor]
    simp only [Nat.xor_zero, and_self]

end Sys2Proof

namespace Sys2Proof.Machine

/-! ### The pair commands -/

theorem exec_interleave2 (x y : Nat) (s : State) :
    exec (.interleave2 x y) s = .next (s.withResponse ⟨s.width.trunc (interleave2 x y), 0, 0, 0⟩) := by
  rw [exec_eq, State.drive, unboundedResults, respond_one]

/-- An operand that fits is deinterleaved without truncation. -/
theorem exec_deinterleave2_of_fits {s : State} {n : Nat} (h : s.width.fits n = true) :
    exec (.deinterleave2 n) s = .next (s.withResponse ⟨(deinterleave2 n).1, (deinterleave2 n).2, 0, 0⟩) := by
  obtain ⟨hx, hy⟩ := PortWidth.trunc_deinterleave2 h
  rw [exec_eq, State.drive, unboundedResults, respond_two, hx, hy]

theorem exec_deinterleave4_of_fits {s : State} {n : Nat} (h : s.width.fits n = true) :
    exec (.deinterleave4 n) s = .next (s.withResponse ⟨(deinterleave4 n).1, (deinterleave4 n).2.1,
      (deinterleave4 n).2.2.1, (deinterleave4 n).2.2.2⟩) := by
  obtain ⟨hw, hx, hy, hz⟩ := PortWidth.trunc_deinterleave4 h
  rw [exec_eq, State.drive, unboundedResults, respond_four, hw, hx, hy, hz]

/-- Settles O36: the command carries the loop's value by definition; the cells add what the loop joins with `|`, and the
corner cases are computed. -/
theorem interleave2FollowsItsPseudocode : Obligations.Interleave2FollowsItsPseudocode := by
  have hzero (k : Nat) : bit 0 k = 0 := (bit_eq_zero_iff 0 k).2 (Nat.zero_testBit k)
  have hbits := firstOperandOwnsTheLowestPosition.1
  refine ⟨fun s x y => exec_interleave2 x y s,
    fun s x y hop ha hb => step_eq_exec hop (List.forall_mem_cons.2 ⟨ha, List.forall_mem_singleton.2 hb⟩),
    fun x y => (interleave2Cells_eq_loop _ x y).symm, by decide, by decide, by decide, by decide, by decide, by decide,
    by decide, by decide, by decide, by decide, by decide, by decide, by decide, by decide, by decide,
    fun x k => ?_, fun y k => ?_, fun v k => hbits v v k⟩
  · simpa only [hzero] using hbits x 0 k
  · simpa only [hzero] using hbits 0 y k

/-- Settles O37: the results of an operand that fits need no truncation, the two accumulators of the loop are separate,
and interleaving is the inverse of deinterleaving; the corner cases are computed. -/
theorem deinterleave2FollowsItsPseudocode : Obligations.Deinterleave2FollowsItsPseudocode := by
  refine ⟨fun s n hw hn => ?_, fun s n hop ha => step_eq_exec hop (List.forall_mem_singleton.2 ha),
    fun width n hw hn => PortWidth.share_fits_deinterleave2 hw hn,
    fun n => (deinterleave2Cells_eq_loop _ n).symm, fun n => ⟨?_, ?_⟩, fun n => ?_, by decide, by decide, by decide,
    by decide, by decide, by decide, by decide, by decide, by decide, by decide, by decide, by decide⟩
  · rw [exec_deinterleave2_of_fits hn, deinterleave2, deinterleave2Loop_eq_foldl]
    rfl
  · exact unspread2_congr (by rw [Nat.and_assoc]; rfl)
  · exact unspread2_congr (by rw [Nat.shiftRight_and_distrib, Nat.and_assoc]; rfl)
  · refine ⟨deinterleave2 n, interleave2_deinterleave2 n, fun xy hxy => ?_⟩
    rw [← hxy, deinterleave2_interleave2]

/-- Settles O47: `k` cells are the loop at count `k`, which computes the code modulo the width, and both results whole
when the operand fits. -/
theorem chunkCellsRealiseThePairOperators : Obligations.ChunkCellsRealiseThePairOperators := by
  refine ⟨fun s k x y hw => ?_, fun s k n hw hn => ?_⟩
  · rw [exec_interleave2, interleave2Cells_eq_loop, interleave2Loop_eq_mod, hw, PortWidth.trunc]
  · have hlen : bitlen n ≤ 32 * k := by
      rw [hw] at hn
      exact (bitlen_le_iff n _).2 (of_decide_eq_true hn)
    rw [exec_deinterleave2_of_fits hn, deinterleave2Cells_eq_loop, deinterleave2Loop_of_bitlen_le hlen]

/-- Settles O48: `trunc_W` on the code cuts both operands to half the width. -/
theorem pairCapacityIsHalfTheWidth : Obligations.PairCapacityIsHalfTheWidth := by
  intro s x y hw
  refine ⟨?_, PortWidth.trunc_interleave2_eq_iff hw x y⟩
  rw [exec_interleave2, PortWidth.trunc_interleave2 hw]

/-- Settles O50: the code on `r0` fits its port and is that of the operands cut to half the width. -/
theorem pairRoundTrip : Obligations.PairRoundTrip := by
  refine ⟨deinterleave2_interleave2, fun s x y hw => ⟨_, exec_interleave2 x y s, ?_⟩⟩
  rw [exec_deinterleave2_of_fits (s.width.fits_trunc _), PortWidth.trunc_interleave2 hw, deinterleave2_interleave2]

/-- Settles O53: interleaving gives back what was deinterleaved, and a command's operand that fits is a code that
`trunc_W` leaves as it is. -/
theorem everyNaturalIsACode : Obligations.EveryNaturalIsACode := by
  refine ⟨interleave2_deinterleave2, fun n => ?_, fun n => ?_, interleave4_deinterleave4, fun s n hw hn => ⟨?_, ?_⟩⟩
  · rw [interleave3_deinterleave3]
    exact (Nat.and_two_pow_sub_one_eq_mod n 30).symm
  · rw [interleave3_deinterleave3]
    exact Nat.mod_eq_iff_lt (by decide)
  · refine ⟨_, _, exec_deinterleave2_of_fits hn, ?_⟩
    rw [exec_interleave2, interleave2_deinterleave2, s.width.trunc_of_fits hn]
  · refine ⟨_, _, _, _, exec_deinterleave4_of_fits hn, ?_⟩
    rw [exec_eq, State.drive, unboundedResults, interleave4_deinterleave4, respond_one, s.width.trunc_of_fits hn]

/-- Settles O57: every literal code is below `2^32`, and every width leaves 0 as it is. -/
theorem sourceLiteralVectors : Obligations.SourceLiteralVectors := by
  intro s hw
  have hzero : s.width.trunc 0 = 0 := s.width.trunc_of_fits s.width.fits_zero
  have hdeinterleave3 : exec (.deinterleave3 0) s = .next (s.withResponse ⟨0, 0, 0, 0⟩) := by
    rw [exec_eq, State.drive, show unboundedResults (.deinterleave3 0) = [0, 0, 0] by decide, respond_three, hzero]
  refine ⟨exec_of_scalar hw (by decide) (by decide), exec_of_scalar hw (by decide) (by decide),
    exec_of_scalar hw (by decide) (by decide), exec_of_scalar hw (by decide) (by decide),
    exec_of_scalar hw (by decide) (by decide), exec_of_scalar hw (by decide) (by decide),
    exec_of_scalar hw (by decide) (by decide), exec_deinterleave2_of_fits s.width.fits_zero, hdeinterleave3,
    exec_deinterleave4_of_fits s.width.fits_zero, by decide, by decide, by decide, by decide, by decide⟩

end Sys2Proof.Machine

namespace Sys2Proof

/-! ### The triple operators: the merge without interference, truncation and the round trip (R121, R123, R127) -/

/-- The three shifted spread values share no bit, so they merge alike by `|`, `+` and `^` (R121). -/
theorem spread3_merge_eq_add_and_xor (x y z : Nat) :
    spread3 x ||| (spread3 y <<< 1) ||| (spread3 z <<< 2) = spread3 x + (spread3 y <<< 1) + (spread3 z <<< 2) ∧
    spread3 x ||| (spread3 y <<< 1) ||| (spread3 z <<< 2) =
      spread3 x ^^^ (spread3 y <<< 1) ^^^ (spread3 z <<< 2) := by
  obtain ⟨-, -, -, hmerge⟩ := threeWayPrimitivesAreInverse
  obtain ⟨hxy, hxz, hyz, -⟩ := hmerge x y z
  have hxyz := or_and_eq_zero hxz hyz
  constructor
  · rw [add_eq_or_of_and_eq_zero hxy, add_eq_or_of_and_eq_zero hxyz]
  · rw [← or_eq_xor_of_and_eq_zero hxy, ← or_eq_xor_of_and_eq_zero hxyz]

theorem spread3_and_mask (n : Nat) : spread3 (n &&& 0x3FF) = spread3 n := spread3Rounds.run_and_entry n

theorem interleave3_and_mask (x y z : Nat) :
    interleave3 (x &&& 0x3FF) (y &&& 0x3FF) (z &&& 0x3FF) = interleave3 x y z := by
  simp only [interleave3, spread3_and_mask]

theorem deinterleave3_interleave3 (x y z : Nat) :
    deinterleave3 (interleave3 x y z) = (x &&& 0x3FF, y &&& 0x3FF, z &&& 0x3FF) := by
  obtain ⟨-, -, -, hmerge⟩ := threeWayPrimitivesAreInverse
  obtain ⟨-, -, -, -, hx, hy, hz⟩ := hmerge x y z
  rw [deinterleave3, interleave3, hx, hy, hz]

end Sys2Proof

namespace Sys2Proof.Machine

/-! ### The triple commands -/

/-- The triple code has 30 bits, so no legal width truncates it. -/
theorem exec_interleave3 {s : State} (hw : s.width.wf = true) (x y z : Nat) :
    exec (.interleave3 x y z) s = .next (s.withResponse ⟨interleave3 x y z, 0, 0, 0⟩) :=
  exec_of_scalar hw rfl (Nat.lt_trans (interleave3_lt x y z) (by decide))

/-- The three results have 10 bits each, so no legal width truncates them. -/
theorem exec_deinterleave3 {s : State} (hw : s.width.wf = true) (n : Nat) :
    exec (.deinterleave3 n) s = .next (s.withResponse
      ⟨(deinterleave3 n).1, (deinterleave3 n).2.1, (deinterleave3 n).2.2, 0⟩) := by
  have htrunc {v : Nat} (hv : v < 2 ^ 10) : s.width.trunc v = v :=
    PortWidth.trunc_of_lt hw (Nat.lt_trans hv (by decide))
  obtain ⟨hx, hy, hz⟩ := deinterleave3_lt n
  rw [exec_eq, State.drive, unboundedResults, respond_three, htrunc hx, htrunc hy, htrunc hz]

/-- Settles O38: the 30-bit code stands on `r0` as it is, its three parts share no bit, and the corner cases are
computed. -/
theorem interleave3FollowsItsPseudocode : Obligations.Interleave3FollowsItsPseudocode := by
  refine ⟨fun s x y z hw => exec_interleave3 hw x y z, fun s x y z hop ha hb hc => step_eq_exec hop ?_,
    spread3_merge_eq_add_and_xor, by decide, by decide, by decide, by decide, by decide, by decide, by decide,
    by decide, by decide, by decide, by decide, by decide, by decide, by decide⟩
  exact List.forall_mem_cons.2 ⟨ha, List.forall_mem_cons.2 ⟨hb, List.forall_mem_singleton.2 hc⟩⟩

/-- Settles O39: the 10-bit results stand on their ports as they are, only the operand's 30-bit window reaches them,
and the corner cases are computed. -/
theorem deinterleave3FollowsItsPseudocode : Obligations.Deinterleave3FollowsItsPseudocode :=
  ⟨fun _ n hw => exec_deinterleave3 hw n, fun _ _ hop ha => step_eq_exec hop (List.forall_mem_singleton.2 ha),
    by decide, by decide, by decide, by decide, fun n => (deinterleave3_mod n).symm, by decide, by decide, by decide,
    by decide⟩

/-- Settles O51: the code passes `r0` whole, and deinterleaving it returns each operand's low 10 bits, which are all
of an operand below 1024. -/
theorem tripleRoundTrip : Obligations.TripleRoundTrip := by
  intro s x y z hw
  have hback : exec (.deinterleave3 (interleave3 x y z)) s =
      .next (s.withResponse ⟨x &&& 0x3FF, y &&& 0x3FF, z &&& 0x3FF, 0⟩) := by
    rw [exec_deinterleave3 hw, deinterleave3_interleave3]
  refine ⟨interleave3 x y z, exec_interleave3 hw x y z, hback, fun hx hy hz => ?_⟩
  have hmask {n : Nat} (hn : n < 1024) : n &&& 0x3FF = n := Nat.and_two_pow_sub_one_of_lt_two_pow (n := 10) hn
  rwa [hmask hx, hmask hy, hmask hz] at hback

/-- Settles O55: masked operands have the same code, and `exec` answers a next state from that code alone. -/
theorem tripleOperandsAreSilentlyTruncated : Obligations.TripleOperandsAreSilentlyTruncated := by
  intro s x y z
  have hmask := interleave3_and_mask x y z
  exact ⟨_, exec_eq (.interleave3 x y z) s, by rw [exec_eq, unboundedResults, hmask, unboundedResults], hmask.symm⟩

end Sys2Proof.Machine

namespace Sys2Proof

/-! ### The quad operators: the round trip and the capacity (R139, R142), and the pair codes inside (R139, R146) -/

theorem deinterleave4_interleave4 (w x y z : Nat) : deinterleave4 (interleave4 w x y z) = (w, x, y, z) := by
  simp only [deinterleave4, interleave4, deinterleave2_interleave2]

theorem interleave4_inj {w x y z w' x' y' z' : Nat} :
    interleave4 w x y z = interleave4 w' x' y' z' ↔ w = w' ∧ x = x' ∧ y = y' ∧ z = z' := by
  simp only [interleave4, interleave2_inj, and_assoc, and_left_comm]

/-- A code fits exactly when its operands fit in a quarter of the width. -/
theorem PortWidth.trunc_interleave4_eq_iff {w : PortWidth} (hw : w.wf = true) (a b c d : Nat) :
    w.trunc (interleave4 a b c d) = interleave4 a b c d ↔
      (w.share 4).fits a = true ∧ (w.share 4).fits b = true ∧ (w.share 4).fits c = true ∧
        (w.share 4).fits d = true := by
  rw [PortWidth.trunc_interleave4 hw, interleave4_inj]
  simp only [PortWidth.trunc_eq_self_iff]

/-- The results of an operand that fits are a quarter as long: their code is that operand. -/
theorem PortWidth.share_fits_deinterleave4 {w : PortWidth} (hw : w.wf = true) {n : Nat} (h : w.fits n = true) :
    (w.share 4).fits (deinterleave4 n).1 = true ∧ (w.share 4).fits (deinterleave4 n).2.1 = true ∧
      (w.share 4).fits (deinterleave4 n).2.2.1 = true ∧ (w.share 4).fits (deinterleave4 n).2.2.2 = true := by
  rw [← PortWidth.trunc_interleave4_eq_iff hw, interleave4_deinterleave4, w.trunc_of_fits h]

@[simp] theorem PortWidth.trunc_trunc (w : PortWidth) (v : Nat) : w.trunc (w.trunc v) = w.trunc v :=
  w.trunc_of_fits (w.fits_trunc v)

/-- Cutting to the width first takes nothing from a share of it. -/
@[simp] theorem PortWidth.share_trunc_trunc (w : PortWidth) (n v : Nat) :
    (w.share n).trunc (w.trunc v) = (w.share n).trunc v := by
  cases w with
  | bits m => exact Nat.mod_mod_of_dvd v (Nat.pow_dvd_pow 2 (Nat.div_le_self m n))
  | inf => rfl

/-- The quad code on `r0` depends on its two intermediate codes only by their low `W / 2` bits (R139). -/
theorem PortWidth.trunc_interleave4_of_pair_codes {width : PortWidth} (hw : width.wf = true) {w x y z p q : Nat}
    (hp : (width.share 2).trunc p = (width.share 2).trunc (interleave2 w y))
    (hq : (width.share 2).trunc q = (width.share 2).trunc (interleave2 x z)) :
    width.trunc (interleave2 p q) = width.trunc (interleave4 w x y z) := by
  rw [interleave4, PortWidth.trunc_interleave2 hw, PortWidth.trunc_interleave2 hw, hp, hq]

end Sys2Proof

namespace Sys2Proof.Machine

/-! ### The quad commands -/

theorem exec_interleave4 (w x y z : Nat) (s : State) :
    exec (.interleave4 w x y z) s = .next (s.withResponse ⟨s.width.trunc (interleave4 w x y z), 0, 0, 0⟩) := by
  rw [exec_eq, State.drive, unboundedResults, respond_one]

/-- Settles O40: the command carries the nested pair codes by definition, and the wrong pairing is the code of the
operands with the second and the third exchanged; the corner cases are computed. -/
theorem interleave4FollowsItsPseudocode : Obligations.Interleave4FollowsItsPseudocode := by
  obtain ⟨-, -, hbits⟩ := firstOperandOwnsTheLowestPosition
  refine ⟨fun s w x y z => exec_interleave4 w x y z s, fun s w x y z hop ha hb hc hd => step_eq_exec hop ?_,
    by decide, by decide, by decide, by decide, by decide, by decide, by decide, by decide, by decide, by decide,
    by decide, by decide, by decide, by decide, by decide, by decide, fun w x y z k => ?_⟩
  · exact List.forall_mem_cons.2 ⟨ha, List.forall_mem_cons.2 ⟨hb, List.forall_mem_cons.2
      ⟨hc, List.forall_mem_singleton.2 hd⟩⟩⟩
  · obtain ⟨h0, h1, h2, h3⟩ := hbits w y x z k
    exact ⟨h0, h2, h1, h3⟩

/-- Settles O41: the results of an operand that fits need no truncation, and interleaving is the inverse of
deinterleaving; the corner cases are computed. -/
theorem deinterleave4FollowsItsPseudocode : Obligations.Deinterleave4FollowsItsPseudocode := by
  refine ⟨fun s n p q w x y z hw hn hpq hwy hxz => ?_,
    fun s n hop ha => step_eq_exec hop (List.forall_mem_singleton.2 ha),
    fun width n hw hn => PortWidth.share_fits_deinterleave4 hw hn, by decide, by decide, by decide, by decide,
    by decide, fun n => ?_, by decide, by decide, by decide, by decide, by decide⟩
  · have hquad : deinterleave4 n = (w, x, y, z) := by simp only [deinterleave4, hpq, hwy, hxz]
    rw [exec_deinterleave4_of_fits hn, hquad]
  · refine ⟨deinterleave4 n, interleave4_deinterleave4 n, fun v hv => ?_⟩
    rw [← hv, deinterleave4_interleave4]

/-- Settles O49: `trunc_W` on the code cuts each operand to a quarter of the width, and reads of the two intermediate
codes no more than `W / 2` bits. -/
theorem quadCapacityIsAQuarterOfTheWidth : Obligations.QuadCapacityIsAQuarterOfTheWidth := by
  intro s w x y z hw
  refine ⟨?_, PortWidth.trunc_interleave4_eq_iff hw w x y z,
    (PortWidth.trunc_interleave4_of_pair_codes hw (PortWidth.trunc_trunc ..) (PortWidth.trunc_trunc ..)).symm⟩
  rw [exec_interleave4, PortWidth.trunc_interleave4 hw]

/-- Settles O52: the code on `r0` fits its port and is that of the operands cut to a quarter of the width. -/
theorem quadRoundTrip : Obligations.QuadRoundTrip := by
  refine ⟨deinterleave4_interleave4, fun s w x y z hw => ⟨_, exec_interleave4 w x y z s, ?_⟩⟩
  rw [exec_deinterleave4_of_fits (s.width.fits_trunc _), PortWidth.trunc_interleave4 hw, deinterleave4_interleave4]

/-- Settles O56: forward, the responses of the two inner commands keep the `W / 2` bits the third one reads; backward,
the results of an operand that fits fit too, so no command truncates any. -/
theorem quadCommandIsThreePairCommands : Obligations.QuadCommandIsThreePairCommands := by
  refine ⟨fun s w x y z hw => ?_, fun s n hw hn => ?_⟩
  · have hcode := PortWidth.trunc_interleave4_of_pair_codes hw (s.width.share_trunc_trunc 2 (interleave2 w y))
      (s.width.share_trunc_trunc 2 (interleave2 x z))
    exact ⟨_, _, _, exec_interleave2 w y s, exec_interleave2 x z s, exec_interleave2 .., hcode ▸ exec_interleave4 ..⟩
  · obtain ⟨hp, hq⟩ := PortWidth.fits_deinterleave2 hn
    exact ⟨_, _, _, _, _, _, exec_deinterleave2_of_fits hn, exec_deinterleave2_of_fits hp,
      exec_deinterleave2_of_fits hq, exec_deinterleave4_of_fits hn⟩

end Sys2Proof.Machine

namespace Sys2Proof

/-! ### Admitted commands (R178) -/

theorem Command.admitted_iff {w : PortWidth} {c : Command} :
    c.admitted w = true ↔ ∃ i, decode c = .ok i ∧ i.wf w = true := by
  unfold Command.admitted
  cases decode c with
  | ok i =>
    refine ⟨fun hfits => ⟨i, rfl, hfits⟩, ?_⟩
    rintro ⟨_, ⟨⟩, hfits⟩
    exact hfits
  | error e => exact ⟨nofun, nofun⟩

end Sys2Proof

namespace Sys2Proof.Machine

/-- Settles O19: an admitted command decodes, and a presented command that decodes is answered by the wiring, whatever
the ports carried before. -/
theorem admittedCommandsComplete : Obligations.AdmittedCommandsComplete := by
  intro s c hadmitted
  obtain ⟨i, hdecode, hfits⟩ := Command.admitted_iff.1 hadmitted
  have hserve := serve_eq_withResponse (s := s) hdecode
  exact ⟨⟨_, hserve⟩, i, _, hdecode, hfits, hserve, rfl, rfl, rfl⟩

end Sys2Proof.Machine

namespace Sys2Proof

/-! ### Commands without an instruction, and changes of one operand port (R61, R176) -/

/-- A sequence of reads that fails met an indefinite port: its first, or one of the rest. -/
theorem Command.read_bind_error {α : Type} {c : Command} {p : OperandPort} {f : Nat → Except DecodeRefusal α}
    {e : DecodeRefusal} (h : (c.read p >>= f) = .error e) :
    (c.operand p = .indefinite ∧ e = .indefiniteInput (.operand p)) ∨ ∃ v, f v = .error e := by
  cases hp : c.operand p with
  | definite v =>
    rw [Command.read_definite hp] at h
    exact .inr ⟨v, h⟩
  | indefinite =>
    rw [Command.read_indefinite hp] at h
    exact .inl ⟨rfl, (Except.error.inj h).symm⟩

/-- A definite code has no instruction for one of two reasons: it is reserved (R62), or a port it uses, which the
verdict names, is indefinite (R176). -/
theorem decodeOp_error_inv {op : OpCode} {c : Command} {e : DecodeRefusal} (h : decodeOp op c = .error e) :
    (10 ≤ op.toNat ∧ e = .reservedOp op) ∨
      ∃ p ∈ operandPorts op, c.operand p = .indefinite ∧ e = .indefiniteInput (.operand p) := by
  unfold decodeOp at h
  split at h
  case h_5 =>
    obtain ha | ⟨x, h⟩ := Command.read_bind_error h
    · exact .inr ⟨.a, by decide, ha⟩
    obtain hb | ⟨y, ⟨⟩⟩ := Command.read_bind_error h
    exact .inr ⟨.b, by decide, hb⟩
  case h_7 =>
    obtain ha | ⟨x, h⟩ := Command.read_bind_error h
    · exact .inr ⟨.a, by decide, ha⟩
    obtain hb | ⟨y, h⟩ := Command.read_bind_error h
    · exact .inr ⟨.b, by decide, hb⟩
    obtain hc | ⟨z, ⟨⟩⟩ := Command.read_bind_error h
    exact .inr ⟨.c, by decide, hc⟩
  case h_9 =>
    obtain ha | ⟨w, h⟩ := Command.read_bind_error h
    · exact .inr ⟨.a, by decide, ha⟩
    obtain hb | ⟨x, h⟩ := Command.read_bind_error h
    · exact .inr ⟨.b, by decide, hb⟩
    obtain hc | ⟨y, h⟩ := Command.read_bind_error h
    · exact .inr ⟨.c, by decide, hc⟩
    obtain hd | ⟨z, ⟨⟩⟩ := Command.read_bind_error h
    exact .inr ⟨.d, by decide, hd⟩
  case h_11 =>
    -- The reserved arm: the codes it leaves are 10 and above.
    refine .inl ⟨?_, (Except.error.inj h).symm⟩
    simp only [imp_false] at *
    bv_omega
  all_goals
    obtain ha | ⟨n, ⟨⟩⟩ := Command.read_bind_error h
    exact .inr ⟨.a, by decide, ha⟩

theorem encode_operand_ne_indefinite (i : Instr) (p : OperandPort) : (encode i).operand p ≠ .indefinite := by
  cases p <;> exact nofun

/-- A code of the table with an indefinite port among those it uses gets a verdict that names such a port. -/
theorem decode_error_of_used_indefinite {c : Command} {op : OpCode} (hc : c.op = .definite op) (hop : op.toNat < 10)
    (hused : ∃ p ∈ operandPorts op, c.operand p = .indefinite) :
    ∃ p ∈ operandPorts op, c.operand p = .indefinite ∧ decode c = .error (.indefiniteInput (.operand p)) := by
  cases hdecode : decode c with
  | ok i =>
    obtain ⟨hi, hports⟩ := decode_ok_inv hdecode
    obtain rfl := Port.definite.inj (hc.symm.trans hi)
    obtain ⟨p, hp, hind⟩ := hused
    exact absurd ((hports p hp).symm.trans hind) (encode_operand_ne_indefinite i p)
  | error e =>
    rw [decode_of_op hc] at hdecode
    obtain ⟨hreserved, -⟩ | ⟨p, hp, hind, rfl⟩ := decodeOp_error_inv hdecode
    · omega
    · exact ⟨p, hp, hind, rfl⟩

theorem Command.uses_eq_false_iff {c : Command} {p : OperandPort} :
    c.uses p = false ↔ ∃ op, c.op = .definite op ∧ p ∉ operandPorts op := by
  unfold Command.uses
  split <;> simp_all

/-- No value on an operand port the command does not use changes its verdict (R61). -/
theorem decode_setOperand_of_uses_eq_false {c : Command} {p : OperandPort} (h : c.uses p = false) (v : Port Nat) :
    decode (c.setOperand p v) = decode c := by
  obtain ⟨op, hop, hp⟩ := Command.uses_eq_false_iff.1 h
  exact decode_setOperand_of_unused hop hp v

theorem Command.fits_iff {w : PortWidth} {c : Command} : c.fits w = true ↔ ∀ p, (c.operand p).fits w = true := by
  simp only [Command.fits, Bool.and_eq_true]
  refine ⟨fun ⟨⟨⟨ha, hb⟩, hc⟩, hd⟩ p => ?_, fun h => ⟨⟨⟨h .a, h .b⟩, h .c⟩, h .d⟩⟩
  cases p
  exacts [ha, hb, hc, hd]

theorem Command.fits_setOperand {w : PortWidth} {c : Command} {p : OperandPort} {v : Port Nat}
    (hc : c.fits w = true) (hv : v.fits w = true) : (c.setOperand p v).fits w = true := by
  refine Command.fits_iff.2 fun q => ?_
  by_cases hq : q = p
  · rwa [hq, Machine.Command.operand_setOperand_same]
  · rw [Machine.Command.operand_setOperand_ne c v hq]
    exact Command.fits_iff.1 hc q

end Sys2Proof

namespace Sys2Proof.Machine

/-- Settles O5: an indefinite `op`, or an indefinite port the code uses, is the decoder's verdict, which the step
refuses by its name; with the used ports definite the command decodes. -/
theorem indefiniteUsedInputIsRefused : Obligations.IndefiniteUsedInputIsRefused := by
  refine ⟨fun s hop => step_of_decode_error (decode_indefinite_op hop), fun s op hc hop hused => ?_,
    fun s op hc hop hused => ?_⟩
  · obtain ⟨p, hp, hind, hdecode⟩ := decode_error_of_used_indefinite hc hop hused
    exact ⟨p, hp, hind, step_of_decode_error hdecode⟩
  · obtain ⟨i, hdecode⟩ := decode_ok_of_used_definite hc hop hused
    exact ⟨_, step_of_decode hdecode⟩

/-! ### The invariant, clause by clause, and the host's moves (R178, R180) -/

theorem State.wf_iff {s : State} :
    s.wf = true ↔ s.width.wf = true ∧ s.input.fits s.width = true ∧
      ∀ r, s.output = .definite r → r.fits s.width = true := by
  rw [State.wf]
  cases s.output <;> simp [and_assoc]

theorem State.settled_iff {s : State} :
    s.settled = true ↔ ∀ r, s.output = .definite r →
      ∃ i, decode s.input = .ok i ∧ r = wiredResponse s.width i := by
  rw [State.settled]
  cases s.output <;> cases decode s.input <;> simp

/-- With nothing to sample, a legal width and inputs that fit it are all the invariant asks. -/
theorem State.inv_of_output_indefinite {s : State} (hout : s.output = .indefinite) (hwidth : s.width.wf = true)
    (hfits : s.input.fits s.width = true) : s.inv = true := by
  refine s.inv_iff.2 ⟨State.wf_iff.2 ⟨hwidth, hfits, ?_⟩, State.settled_iff.2 ?_⟩ <;> simp [hout]

/-- A response that stands after one operand port is driven stood before, and the operation does not use the port. -/
theorem State.driveOperand_output_cases {s : State} {p : OperandPort} {v : Port Nat} {r : Response}
    (h : (s.driveOperand p v).output = .definite r) : s.input.uses p = false ∧ s.output = .definite r := by
  rw [State.driveOperand_output] at h
  split at h
  · cases h
  · next hp => exact ⟨Bool.eq_false_of_not_eq_true hp, h⟩

theorem State.wf_driveOperand {s : State} (hs : s.wf = true) (p : OperandPort) {v : Port Nat}
    (hv : v.fits s.width = true) : (s.driveOperand p v).wf = true := by
  obtain ⟨hwidth, hfits, hout⟩ := State.wf_iff.1 hs
  refine State.wf_iff.2 ⟨hwidth, Command.fits_setOperand hfits hv, fun r hr => ?_⟩
  obtain ⟨-, hr⟩ := State.driveOperand_output_cases hr
  exact hout r hr

/-- A response that stands is still the one to the present inputs: the changed port is no part of the verdict. -/
theorem State.settled_driveOperand {s : State} (hs : s.settled = true) (p : OperandPort) (v : Port Nat) :
    (s.driveOperand p v).settled = true := by
  refine State.settled_iff.2 fun r hr => ?_
  obtain ⟨hunused, hr⟩ := State.driveOperand_output_cases hr
  rw [State.driveOperand_input, decode_setOperand_of_uses_eq_false hunused]
  exact State.settled_iff.1 hs r hr

/-- Settles O17: after `present` and `driveOp` there is nothing to sample, and driving one operand port keeps both
parts of the invariant. -/
theorem hostMovesKeepTheInvariant : Obligations.HostMovesKeepTheInvariant := by
  intro s hinv
  obtain ⟨hwf, hsettled⟩ := s.inv_iff.1 hinv
  obtain ⟨hwidth, hfits, -⟩ := State.wf_iff.1 hwf
  refine ⟨fun c hc => ?_, fun v => ?_, fun p v hv => ?_⟩
  · exact State.inv_of_output_indefinite (s.present_output c) hwidth hc
  · exact State.inv_of_output_indefinite (s.driveOp_output v) hwidth hfits
  · exact (State.inv_iff _).2 ⟨State.wf_driveOperand hwf p hv, State.settled_driveOperand hsettled p v⟩

/-- A step drives again the response that already stands on the result ports. -/
theorem step_of_settled {s : State} {r : Response} (hs : s.settled = true) (hr : s.output = .definite r) :
    step s = .next s := by
  obtain ⟨i, hdecode, rfl⟩ := State.settled_iff.1 hs r hr
  rw [step_of_decode hdecode, State.drive_unboundedResults, State.withResponse, ← hr]

/-- Settles O18: a used input takes the response away by the definition of the moves; after a change of an unused port
the state is settled with the response it had, so a step answers that state. -/
theorem onlyAUsedInputDisturbsTheResponse : Obligations.OnlyAUsedInputDisturbsTheResponse := by
  refine ⟨State.present_output, State.driveOp_output, fun s p v hused => ?_, fun s p v r hsettled hr hunused => ?_⟩
  · rw [State.driveOperand_output, if_pos hused]
  · have hout : (s.driveOperand p v).output = .definite r := by simp [hunused, hr]
    exact ⟨hout, step_of_settled (State.settled_driveOperand hsettled p v) hout⟩

end Sys2Proof.Machine

namespace Sys2Proof

/-- A finite port presents every integer by its remainder modulo `2^w` (log entry 15). -/
theorem PortWidth.pattern_bits_eq_emod (w : Nat) (z : Int) :
    ∃ v : Nat, (PortWidth.bits w).pattern z = some v ∧ (v : Int) = z % 2 ^ w :=
  ⟨_, rfl, Int.toNat_of_nonneg (Int.emod_nonneg z (by positivity))⟩

end Sys2Proof

namespace Sys2Proof.Machine

/-- A code of the table on definite operands is answered, whatever their values. -/
theorem serve_definite_answered (s : State) {op : OpCode} (hop : op.toNat < 10) (a b c d : Nat) :
    ∃ t, serve s ⟨.definite op, .definite a, .definite b, .definite c, .definite d⟩ = .next t := by
  obtain ⟨i, hdecode⟩ := decode_ok_of_used_definite
    (c := ⟨.definite op, .definite a, .definite b, .definite c, .definite d⟩) rfl hop
    fun p _ => by cases p <;> exact nofun
  exact ⟨_, serve_of_decode hdecode⟩

/-- Settles O59: the value presented is the remainder modulo `2^w`, which differs from the integer by a multiple of
`2^w`, and a code of the table is answered on any four values. -/
theorem anyIntegerIsPresentedModuloTheWidth : Obligations.AnyIntegerIsPresentedModuloTheWidth := by
  refine ⟨fun w z => ?_, fun s w op a b c d hwidth hop => ?_⟩
  · obtain ⟨v, hpattern, hv⟩ := PortWidth.pattern_bits_eq_emod w z
    exact ⟨v, hpattern, PortWidth.pattern_bits_lt hpattern, hv ▸ Int.dvd_self_sub_emod⟩
  · obtain ⟨va, hva, -⟩ := PortWidth.pattern_bits_eq_emod w a
    obtain ⟨vb, hvb, -⟩ := PortWidth.pattern_bits_eq_emod w b
    obtain ⟨vc, hvc, -⟩ := PortWidth.pattern_bits_eq_emod w c
    obtain ⟨vd, hvd, -⟩ := PortWidth.pattern_bits_eq_emod w d
    obtain ⟨t, ht⟩ := serve_definite_answered s hop va vb vc vd
    rw [hwidth]
    exact ⟨va, vb, vc, vd, t, hva, hvb, hvc, hvd, ht⟩

end Sys2Proof.Machine
